-- ==== Sys2Proof/Word.lean ====
section
/-! DEFINITION. The words of the block: bytes, 32-bit scan codes, 32-bit millisecond timestamps, and the eight bytes of a
USB report. -/

namespace Sys2Proof

/-- 8 bits (00_scope R9): a byte on the PS/2 wire, in RB, in a report. -/
abbrev Byte := BitVec 8

/-- A 32-bit scan code (30_encoding R81). -/
abbrev Code := BitVec 32

/-- A 32-bit millisecond timestamp (10_state R50); arithmetic wraps mod 2^32. -/
abbrev Millis := BitVec 32

/-- Eight bytes, indexed 0 to 7: RBUS (30_encoding R76), STEP[j].data (10_state R49), a USB report (30_encoding R84). -/
structure Bytes8 where
  b0 : Byte
  b1 : Byte
  b2 : Byte
  b3 : Byte
  b4 : Byte
  b5 : Byte
  b6 : Byte
  b7 : Byte
deriving DecidableEq, Repr, Inhabited

/-- Eight bytes 0x00. -/
def Bytes8.zero : Bytes8 := ⟨0, 0, 0, 0, 0, 0, 0, 0⟩

end Sys2Proof
end

