-- ==== Sys2Proof/Config.lean ====
section
/-! DEFINITION. What an implementation fixes: the fixed values of 00_scope R5, the decided parameters of R8, the OPEN
environment parameters of R7, and the free values (values the spec leaves unspecified). The OPEN timing parameters of R6 have
no place here: the model is the untimed one, with oracle events in their stead. -/

namespace Sys2Proof

namespace Config

/-- RB_CAP (R5): slots of the receive ring buffer. -/
def rbCap : Nat := 32
/-- KEYSET_CAP (R5): pressed-key slots of the environment. -/
def keysetCap : Nat := 6
/-- MACRO_CAP (R5): macro steps. -/
def macroCap : Nat := 40
/-- MACRO_DIV (R5): recorded-delay divisor. -/
def macroDiv : Nat := 3
/-- LED_PERIOD_MS (R5): chase advance period. -/
def ledPeriodMs : Nat := 166
/-- LED_PHASES (R5): chase phases. -/
def ledPhases : Nat := 3
/-- SEND_ATTEMPTS (R5): total send attempts. -/
def sendAttempts : Nat := 3
/-- SAFETY_MS (R5): stuck-key deadline. -/
def safetyMs : Nat := 60000
/-- REPORT_LEN (R5): bytes of a USB report. -/
def reportLen : Nat := 8
/-- ACK (R5): the device's acknowledge byte. -/
def ack : Byte := 0xFA
/-- BAT_OK (R5): the reset-complete reply. -/
def batOk : Byte := 0xAA
/-- CMD_RESET (R5): reset command. -/
def cmdReset : Byte := 0xFF
/-- CMD_SCANSET (R5): select scan-code set, first byte. -/
def cmdScanset : Byte := 0xF0
/-- SCANSET_2 (R5): select scan-code set, second byte. -/
def scanset2 : Byte := 0x02
/-- CMD_LEDS (R5): set LEDs, followed by the LED byte. -/
def cmdLeds : Byte := 0xED
/-- CMD_RESEND (R5): host resend request. -/
def cmdResend : Byte := 0xFE
/-- PFX_BREAK (R5): release prefix. -/
def pfxBreak : Byte := 0xF0
/-- PFX_EXT (R5): extended prefix. -/
def pfxExt : Byte := 0xE0
/-- PFX_EXT2 (R5): pause prefix. -/
def pfxExt2 : Byte := 0xE1
/-- PAUSE_CODE (R5): synthetic pause scan code. -/
def pauseCode : Code := 0x00E11477
/-- EXT_TAG (R5): tag on E0-prefixed codes. -/
def extTag : Code := 0x0000E000

/-- TX_EDGES (R8, decision D22): edges consumed per transmission. -/
def txEdges : Nat := 11
/-- LED_CHASE_REPLAY (R8, decision D43): PS/2 LED byte per phase. -/
def ledChaseReplay : List Byte := [0x01, 0x02, 0x04]
/-- LED_CHASE_RECORD (R8, decision D43). -/
def ledChaseRecord : List Byte := [0x04, 0x02, 0x01]

end Config

/-- The OPEN environment parameters of 00_scope R7 and 47_environment R171. -/
structure EnvParams where
  /-- HK_RECORD -/
  hkRecord : Code
  /-- HK_PLAY -/
  hkPlay : Code
  /-- HK_RESET -/
  hkReset : Code
  /-- HK_BLINK -/
  hkBlink : Code
  /-- TRANSLATE: from 32-bit codes to an 8-bit usage or `unsupported`. -/
  translate : Code → Byte
  /-- UNSUPPORTED: the sentinel. R7 gives it no width. DESIGN CHOICE (assumption log 16): it is one of the 256 byte values, so a table
  whose supported usages are all 256 of them is no value of this type. -/
  unsupported : Byte
deriving Inhabited

/-- The hotkeys (00_scope R7). -/
def EnvParams.hotkeys (p : EnvParams) : List Code := [p.hkRecord, p.hkPlay, p.hkReset, p.hkBlink]

/-- What 47_environment R171 and 93_implementation_defined section 2 require of the parameters: four distinct hotkeys, none of them
zero; the two table entries the source gives, both of them supported. That UNSUPPORTED differs from the usage of every other
supported code needs no clause: a code is supported when TRANSLATE returns something else for it. -/
def EnvParams.admissible (p : EnvParams) : Bool :=
  decide p.hotkeys.Nodup && !p.hotkeys.contains 0 &&
  p.translate 0x0000001C == 0x04 && p.translate 0x0000E075 == 0x52 && p.unsupported != 0x04 && p.unsupported != 0x52

/-- Parameters that are admissible, so that `EnvParams.accept` has some to give. -/
def EnvParams.sample : EnvParams where
  hkRecord := 1
  hkPlay := 2
  hkReset := 3
  hkBlink := 4
  translate c := if c = 0x0000001C#32 then 0x04 else if c = 0x0000E075#32 then 0x52 else 0
  unsupported := 0

/-- The parameters if they are admissible, else the sample; so every admissible set of parameters is a value of this, and no other is. -/
def EnvParams.accept (p : EnvParams) : EnvParams := if p.admissible then p else EnvParams.sample

/-- The implementation's choice (assumption log 16): a constant with no body, so no proof can lean on a value of it. -/
opaque Config.envChoice : EnvParams

/-- The environment parameters of the machine (assumption log 16): any admissible ones; a claim about `step` holds for every
choice. -/
def Config.env : EnvParams := Config.envChoice.accept

/-- FREE VALUE (assumption log 6): STEP[j].len after the n-th block reset, unspecified by 70_reset_and_hazards R188. -/
opaque Config.freeStepLen : Nat → Nat → BitVec 4
/-- FREE VALUE (assumption log 6): byte k of STEP[j].data after the n-th block reset. -/
opaque Config.freeStepByte : Nat → Nat → Nat → Byte
/-- FREE VALUE (assumption log 6): STEP[j].delay after the n-th block reset. -/
opaque Config.freeStepDelay : Nat → Nat → Millis

end Sys2Proof
end

