-- ==== Sys2Proof/Syntax.lean ====
section
/-! DEFINITION. The instruction set as syntax: one constructor of `Instr` per row of spec/opcode_table.json, the six formats
the rows belong to, and the offers that carry an instruction's bits to the block. -/

namespace Sys2Proof

/-- K_MODE, the DecoderMode (10_state R38): Key = 0, ExtendedKey = 1, ExtendedKey2 = 2, Command = 3. Here because it is the
selector of the SCAN_BYTE rows. -/
inductive KMode where
  | key
  | extendedKey
  | extendedKey2
  | command
deriving DecidableEq, Repr

/-- The formats of the table's rows. A row's bits mean something only within its format: the same bits are another row in
another format. -/
inductive Format where
  /-- OP16: the 16-bit operation word (30_encoding R76). -/
  | op16
  /-- PS2_FRAME11: a device-to-host frame, position 0 in bit 0 (30_encoding R74). -/
  | frame11
  /-- PS2_HOSTSEQ11: a host-to-device sequence, start bit in bit 0, acknowledge edge in bit 11 (30_encoding R75). -/
  | hostSeq11
  /-- PS2_CMD: one or two host-to-device command bytes, the first byte sent in the more significant byte (30_encoding R82). -/
  | cmd
  /-- PS2_RESP: a device-to-host byte with a special meaning (30_encoding R83). -/
  | resp
  /-- SCAN_BYTE: a byte given to DECODE (30_encoding R79). -/
  | scanByte
deriving DecidableEq, Repr

/-- The bits of one instruction as an agent offers them: the format they are in, the word, and the report bus beside the word,
which only REPORT reads (30_encoding R76). -/
structure Offer where
  fmt : Format
  word : BitVec 16
  rbus : Bytes8
deriving DecidableEq, Repr

/-- One constructor per row of spec/opcode_table.json. -/
inductive Instr where
  /-- EDGE d: one active clock edge, d the sampled data level (41 R93). -/
  | edge (d : Bool)
  /-- RECOVERY_DONE (41 R100) -/
  | recoveryDone
  /-- TICK (45 R158) -/
  | tick
  /-- HOST_LED b (45 R160) -/
  | hostLed (b : Byte)
  /-- SETTLE_DONE (42 R108) -/
  | settleDone
  /-- IDLE_TIMEOUT (42 R109) -/
  | idleTimeout
  /-- SETUP_DONE (42 R110) -/
  | setupDone
  /-- ACK_TIMEOUT (42 R113) -/
  | ackTimeout
  /-- BAT_TIMEOUT (42 R122) -/
  | batTimeout
  /-- POP (42 R105) -/
  | pop
  /-- SEND b (42 R107) -/
  | send (b : Byte)
  /-- ACK_POLL (42 R112) -/
  | ackPoll
  /-- RESEND_SERVICE (42 R117) -/
  | resendService
  /-- DECODE b (43 R124) -/
  | decode (b : Byte)
  /-- CMD_ENTER (43 R139) -/
  | cmdEnter
  /-- CMD_LEAVE (43 R140) -/
  | cmdLeave
  /-- MODS_CLEAR (43 R141) -/
  | modsClear
  /-- REC_HOTKEY (44 R147) -/
  | recHotkey
  /-- PLAY_HOTKEY (44 R148) -/
  | playHotkey
  /-- OTHER_PRESS (44 R149) -/
  | otherPress
  /-- REPORT len with the report bus RBUS (44 R150) -/
  | report (len : BitVec 4) (rbus : Bytes8)
  /-- SERVICE (44 R151) -/
  | service
  /-- LED_APPLY (45 R161) -/
  | ledApply
  /-- BAT_POLL (42 R121) -/
  | batPoll
  /-- RESET (70 R188) -/
  | reset
  /-- PARITY b (40 R88) -/
  | parity (b : Byte)
  /-- RESERVED_1A_1B: OPSEL 0x1A or 0x1B (30 R78), the other twelve bits kept -/
  | reserved1A1B (x : BitVec 12)
  /-- RESERVED_1C_1F: OPSEL 0x1C to 0x1F (30 R78), the other thirteen bits kept -/
  | reserved1C1F (x : BitVec 13)
  /-- FRAME_RX: a device-to-host frame with data d and parity bit p (30 R74) -/
  | frameRx (d : Byte) (p : Bool)
  /-- FRAME_TX: a host-to-device sequence with data d, parity bit p and device acknowledge level a (30 R75) -/
  | frameTx (d : Byte) (p : Bool) (a : Bool)
  /-- CMD_RESET: 0xFF (42 R120) -/
  | cmdReset
  /-- CMD_SCANSET2: 0xF0 0x02 (42 R119) -/
  | cmdScanset2
  /-- CMD_SET_LEDS: 0xED v (42 R118) -/
  | cmdSetLeds (v : Byte)
  /-- CMD_RESEND: 0xFE (42 R117) -/
  | cmdResend
  /-- RESP_ACK: 0xFA (41 R101) -/
  | respAck
  /-- RESP_BAT_OK: 0xAA (42 R121) -/
  | respBatOk
  /-- RESP_ZERO: 0x00 (41 R101) -/
  | respZero
  /-- SCAN_ZERO: 0x00 in any mode but Command (43 R126) -/
  | scanZero
  /-- SCAN_BREAK_F0 (43 R127) -/
  | scanBreakF0
  /-- SCAN_EXT_E0: 0xE0 in Key or ExtendedKey (43 R128) -/
  | scanExtE0
  /-- SCAN_PAUSE_E1: 0xE1 in Key or ExtendedKey (43 R129) -/
  | scanPauseE1
  /-- SCAN_EXT2_PREFIX: 0xE0 (x = 0) or 0xE1 (x = 1) in ExtendedKey2 (43 R130) -/
  | scanExt2Prefix (x : Bool)
  /-- SCAN_EXT2_14: 0x14 in ExtendedKey2 with K_P2 = 0 (43 R131) -/
  | scanExt2Byte14
  /-- SCAN_EXT2_77: 0x77 in ExtendedKey2 with K_P2 = 1 (43 R132) -/
  | scanExt2Byte77
  /-- SCAN_EXT2_OTHER: any other byte in ExtendedKey2 (43 R133) -/
  | scanExt2Other (b : Byte)
  /-- SCAN_EXT_DISCARD: 0x12 in ExtendedKey (43 R134) -/
  | scanExtDiscard
  /-- SCAN_EXT_DISCARD_59: 0x59 in ExtendedKey (43 R134) -/
  | scanExtDiscard59
  /-- SCAN_EXT_MOD: an extended modifier byte in ExtendedKey (43 R135) -/
  | scanExtMod (b : Byte)
  /-- SCAN_EXT_PLAIN: any other byte in ExtendedKey (43 R136) -/
  | scanExtPlain (b : Byte)
  /-- SCAN_KEY_MOD: a base modifier byte in Key (43 R137) -/
  | scanKeyMod (b : Byte)
  /-- SCAN_KEY_PLAIN: any other byte in Key (43 R138) -/
  | scanKeyPlain (b : Byte)
  /-- SCAN_COMMAND: any byte in Command (43 R125) -/
  | scanCommand (b : Byte)
deriving DecidableEq, Repr

end Sys2Proof
end

