-- ==== Sys2Proof/Machine/Operands.lean ====
section
/-! DEFINITION. Operand forms: bit fields, the byte classes and modifier bits of the scan-code decoder (30_encoding R79,
43_decoder R135, R137), the bytes of a report and the levels of a frame. -/

namespace Sys2Proof.Machine

/-- `v[k] <- d` (00_scope R10) for one bit of a value. -/
def putBit {w : Nat} (v : BitVec w) (k : Nat) (d : Bool) : BitVec w :=
  (v &&& ~~~(BitVec.twoPow w k)) ||| (if d then BitVec.twoPow w k else 0)

/-- The K_MODS bit of a base modifier byte in Key (43 R137), none for any other byte. -/
def keyModBit (b : Byte) : Option Nat :=
  if b = 0x14#8 then some 0
  else if b = 0x12#8 then some 1
  else if b = 0x11#8 then some 2
  else if b = 0x59#8 then some 5
  else none

/-- The K_MODS bit of an extended modifier byte in ExtendedKey (43 R135), none for any other byte. -/
def extModBit (b : Byte) : Option Nat :=
  if b = 0x14#8 then some 4
  else if b = 0x11#8 then some 6
  else if b = 0x1F#8 then some 3
  else if b = 0x27#8 then some 7
  else none

/-- The prefix bytes 0xF0, 0xE0 and 0xE1 (43 R143). -/
def isPrefix (b : Byte) : Bool :=
  b == Config.pfxBreak || b == Config.pfxExt || b == Config.pfxExt2

/-- The bytes whose codes 0xE012 and 0xE059 are discarded in ExtendedKey (43 R134). -/
def isExtDiscard (b : Byte) : Bool := b == 0x12#8 || b == 0x59#8

/-- The final bytes of R138: neither zero, nor a prefix, nor a base modifier. -/
def isKeyPlain (b : Byte) : Bool :=
  b != 0x00#8 && !isPrefix b && (keyModBit b).isNone

/-- The final bytes of R136: neither zero, nor a prefix, nor discarded, nor an extended modifier. -/
def isExtPlain (b : Byte) : Bool :=
  b != 0x00#8 && !isPrefix b && !isExtDiscard b && (extModBit b).isNone

/-- The bytes of R133 but for the two continuation bytes, which the selector K_P2 decides. -/
def isExt2Other (b : Byte) : Bool := b != 0x00#8 && !isPrefix b

/-- The row of the table that DECODE's byte b selects in (K_MODE, K_P2): the dispatch of 43 R124, in its order. It is total:
every (K_MODE, K_P2, b) selects exactly one row. -/
def scanRow (k : KMode) (p2 : Bool) (b : Byte) : Instr :=
  if k = .command then .scanCommand b
  else if b = 0x00#8 then .scanZero
  else if b = Config.pfxBreak then .scanBreakF0
  else if k = .extendedKey2 then
    if b = Config.pfxExt then .scanExt2Prefix false
    else if b = Config.pfxExt2 then .scanExt2Prefix true
    else if b = 0x14#8 ∧ p2 = false then .scanExt2Byte14
    else if b = 0x77#8 ∧ p2 = true then .scanExt2Byte77
    else .scanExt2Other b
  else if b = Config.pfxExt then .scanExtE0
  else if b = Config.pfxExt2 then .scanPauseE1
  else if k = .extendedKey then
    if b = 0x12#8 then .scanExtDiscard
    else if b = 0x59#8 then .scanExtDiscard59
    else if (extModBit b).isSome then .scanExtMod b
    else .scanExtPlain b
  else if (keyModBit b).isSome then .scanKeyMod b
  else .scanKeyPlain b

/-- The selector of a row (its "selector" field in spec/opcode_table.json): the (K_MODE, K_P2) in which the row stands. The
rows of the other formats stand in every mode. -/
def selects : Instr → KMode → Bool → Bool
  | .scanZero, k, _ => k != .command
  | .scanBreakF0, k, _ => k != .command
  | .scanExtE0, k, _ => k == .key || k == .extendedKey
  | .scanPauseE1, k, _ => k == .key || k == .extendedKey
  | .scanExt2Prefix _, k, _ => k == .extendedKey2
  | .scanExt2Byte14, k, p2 => k == .extendedKey2 && !p2
  | .scanExt2Byte77, k, p2 => k == .extendedKey2 && p2
  | .scanExt2Other b, k, p2 => k == .extendedKey2 && !(b == 0x14#8 && !p2) && !(b == 0x77#8 && p2)
  | .scanExtDiscard, k, _ => k == .extendedKey
  | .scanExtDiscard59, k, _ => k == .extendedKey
  | .scanExtMod _, k, _ => k == .extendedKey
  | .scanExtPlain _, k, _ => k == .extendedKey
  | .scanKeyMod _, k, _ => k == .key
  | .scanKeyPlain _, k, _ => k == .key
  | .scanCommand _, k, _ => k == .command
  | _, _, _ => true

/-- The bytes of a report in index order (20_memory R60). -/
def bytesOf (r : Bytes8) : List Byte := [r.b0, r.b1, r.b2, r.b3, r.b4, r.b5, r.b6, r.b7]

/-- The first eight bytes of a list, 0x00 where it is shorter. -/
def bytes8 (l : List Byte) : Bytes8 :=
  ⟨l.getD 0 0, l.getD 1 0, l.getD 2 0, l.getD 3 0, l.getD 4 0, l.getD 5 0, l.getD 6 0, l.getD 7 0⟩

/-- `r[0..len-1]`: the first len bytes (44 R150, R152). -/
def firstBytes (len : BitVec 4) (r : Bytes8) : List Byte := (bytesOf r).take len.toNat

/-- `RBUS[0..len-1], then 0x00 up to index 7` (44 R150). -/
def padded (len : BitVec 4) (r : Bytes8) : Bytes8 := bytes8 (firstBytes len r)

/-- An empty report: its first len bytes are all 0x00 (00_scope R14, decision D39). -/
def emptyReport (len : BitVec 4) (r : Bytes8) : Bool := (firstBytes len r).all (· == 0x00#8)

/-- REPORT's operand is valid: 1 ≤ len ≤ 8 (30_encoding R78). -/
def validLen (len : BitVec 4) : Bool := decide (1 ≤ len.toNat ∧ len.toNat ≤ 8)

/-- The data bits of a byte, least significant first (20_memory R59). -/
def bitsLsbFirst (b : Byte) : List Bool := (List.range 8).map (fun k => b.getLsbD k)

/-- The levels of a device-to-host frame with start bit s, data d, parity bit p and stop bit t, position 0 first
(30_encoding R74). -/
def frameLevels (s : Bool) (d : Byte) (p t : Bool) : List Bool := s :: (bitsLsbFirst d ++ [p, t])

/-- The levels the device samples while it clocks out a host-to-device sequence: ten levels the block ignores, then the
acknowledge level a (30_encoding R75, R87 `txclk`). -/
def txLevels (a : Bool) : List Bool := List.replicate (Config.txEdges - 1) true ++ [a]

end Sys2Proof.Machine
end

