-- ==== Sys2Proof/WellFormed.lean ====
section
/-! DEFINITION. Which instructions the encodings admit: the operand ranges of 30_encoding R77 and R78 and the byte classes of
R79. -/

namespace Sys2Proof

open Sys2Proof.Machine

/-- The operand checks of each row; a row without an operand, or with one that takes every value, has none. -/
def Instr.wf : Instr → Bool
  | .report len _ => validLen len
  | .scanExt2Other b => isExt2Other b
  | .scanExtMod b => (extModBit b).isSome
  | .scanExtPlain b => isExtPlain b
  | .scanKeyMod b => (keyModBit b).isSome
  | .scanKeyPlain b => isKeyPlain b
  | _ => true

end Sys2Proof
end

