-- ==== Sys2Proof/Decode.lean ====
section
/-! DEFINITION. The decoder, total on any offer, rejecting by `none`, and after it the encoder, both written from the encodings
of 30_encoding and spec/opcode_table.json. -/

namespace Sys2Proof

open Sys2Proof.Machine

/-! ## Decoder -/

/-- An operation whose PAY column says 0 (30_encoding R77, R78). -/
def decodeNoPay (pay : Byte) (i : Instr) : Option Instr := if pay = 0#8 then some i else none

/-- EDGE: PAY[0] = d, PAY[7:1] = 0. -/
def decodeEdge (pay : Byte) : Option Instr :=
  if pay.extractLsb' 1 7 = 0#7 then some (.edge (pay.getLsbD 0)) else none

/-- REPORT: PAY[3:0] = len with 1 ≤ len ≤ 8, PAY[7:4] = 0. -/
def decodeReport (pay : Byte) (rbus : Bytes8) : Option Instr :=
  if pay.extractLsb' 4 4 = 0#4 ∧ validLen (pay.extractLsb' 0 4) = true then
    some (.report (pay.extractLsb' 0 4) rbus)
  else none

/-- The operation of an OPSEL below 0x1A (30_encoding R77). -/
def decodeOpsel (opsel : Nat) (pay : Byte) (rbus : Bytes8) : Option Instr :=
  match opsel with
  | 0x00 => decodeEdge pay
  | 0x01 => decodeNoPay pay .recoveryDone
  | 0x02 => decodeNoPay pay .tick
  | 0x03 => some (.hostLed pay)
  | 0x04 => decodeNoPay pay .settleDone
  | 0x05 => decodeNoPay pay .idleTimeout
  | 0x06 => decodeNoPay pay .setupDone
  | 0x07 => decodeNoPay pay .ackTimeout
  | 0x08 => decodeNoPay pay .batTimeout
  | 0x09 => decodeNoPay pay .pop
  | 0x0A => some (.send pay)
  | 0x0B => decodeNoPay pay .ackPoll
  | 0x0C => decodeNoPay pay .resendService
  | 0x0D => some (.decode pay)
  | 0x0E => decodeNoPay pay .cmdEnter
  | 0x0F => decodeNoPay pay .cmdLeave
  | 0x10 => decodeNoPay pay .modsClear
  | 0x11 => decodeNoPay pay .recHotkey
  | 0x12 => decodeNoPay pay .playHotkey
  | 0x13 => decodeNoPay pay .otherPress
  | 0x14 => decodeReport pay rbus
  | 0x15 => decodeNoPay pay .service
  | 0x16 => decodeNoPay pay .ledApply
  | 0x17 => decodeNoPay pay .batPoll
  | 0x18 => decodeNoPay pay .reset
  | 0x19 => some (.parity pay)
  | _ => none

/-- The decoder of operation words (30_encoding R76 to R78): every 16-bit word is one row or `none` (`invalid`). The two reserved
rows are read as such, so that they can be refused by name. -/
def decodeOp16 (w : BitVec 16) (rbus : Bytes8) : Option Instr :=
  if w.extractLsb' 12 4 = 0b1101#4 then some (.reserved1A1B (w.extractLsb' 0 12))
  else if w.extractLsb' 13 3 = 0b111#3 then some (.reserved1C1F (w.extractLsb' 0 13))
  else if w.extractLsb' 8 3 = 0#3 then decodeOpsel (w.extractLsb' 11 5).toNat (w.extractLsb' 0 8) rbus
  else none

/-- A device-to-host frame `1 p d7..d0 0` (30_encoding R74). A frame with an illegal start or stop bit is no row of the table:
its edges come as EDGE operations. -/
def decodeFrame11 (w : BitVec 16) : Option Instr :=
  if w.extractLsb' 11 5 = 0#5 ∧ w.getLsbD 10 = true ∧ w.getLsbD 0 = false then
    some (.frameRx (w.extractLsb' 1 8) (w.getLsbD 9))
  else none

/-- A host-to-device sequence `a 1 p d7..d0 0` (30_encoding R75). -/
def decodeHostSeq11 (w : BitVec 16) : Option Instr :=
  if w.extractLsb' 12 4 = 0#4 ∧ w.getLsbD 10 = true ∧ w.getLsbD 0 = false then
    some (.frameTx (w.extractLsb' 1 8) (w.getLsbD 9) (w.getLsbD 11))
  else none

/-- The command bytes (30_encoding R82). -/
def decodeCmd (w : BitVec 16) : Option Instr :=
  if w = 0x00FF#16 then some .cmdReset
  else if w = 0x00FE#16 then some .cmdResend
  else if w = 0xF002#16 then some .cmdScanset2
  else if w.extractLsb' 8 8 = 0xED#8 then some (.cmdSetLeds (w.extractLsb' 0 8))
  else none

/-- The response bytes with a special meaning (30_encoding R83). Any other device byte is offered as a frame. -/
def decodeResp (w : BitVec 16) : Option Instr :=
  if w = 0x00FA#16 then some .respAck
  else if w = 0x00AA#16 then some .respBatOk
  else if w = 0x0000#16 then some .respZero
  else none

/-- A scan byte: its row is selected by the byte and (K_MODE, K_P2) (30_encoding R79). -/
def decodeScan (k : KMode) (p2 : Bool) (w : BitVec 16) : Option Instr :=
  if w.extractLsb' 8 8 = 0#8 then some (scanRow k p2 (w.extractLsb' 0 8)) else none

/-- The decoder. `k` and `p2` are K_MODE and K_P2: the selector of a SCAN_BYTE row is state, not bits. -/
def decode (k : KMode) (p2 : Bool) (o : Offer) : Option Instr :=
  match o.fmt with
  | .op16 => decodeOp16 o.word o.rbus
  | .frame11 => decodeFrame11 o.word
  | .hostSeq11 => decodeHostSeq11 o.word
  | .cmd => decodeCmd o.word
  | .resp => decodeResp o.word
  | .scanByte => decodeScan k p2 o.word

/-! ## Encoder -/

/-- OPSEL, Z = 000, PAY (30_encoding R76). -/
def opWord (opsel : BitVec 5) (pay : Byte) : BitVec 16 := opsel ++ 0#3 ++ pay

/-- A byte in the low half of the word. -/
def byteWord (b : Byte) : BitVec 16 := 0#8 ++ b

/-- The format of each row. -/
def formatOf : Instr → Format
  | .frameRx _ _ => .frame11
  | .frameTx _ _ _ => .hostSeq11
  | .cmdReset => .cmd
  | .cmdScanset2 => .cmd
  | .cmdSetLeds _ => .cmd
  | .cmdResend => .cmd
  | .respAck => .resp
  | .respBatOk => .resp
  | .respZero => .resp
  | .scanZero => .scanByte
  | .scanBreakF0 => .scanByte
  | .scanExtE0 => .scanByte
  | .scanPauseE1 => .scanByte
  | .scanExt2Prefix _ => .scanByte
  | .scanExt2Byte14 => .scanByte
  | .scanExt2Byte77 => .scanByte
  | .scanExt2Other _ => .scanByte
  | .scanExtDiscard => .scanByte
  | .scanExtDiscard59 => .scanByte
  | .scanExtMod _ => .scanByte
  | .scanExtPlain _ => .scanByte
  | .scanKeyMod _ => .scanByte
  | .scanKeyPlain _ => .scanByte
  | .scanCommand _ => .scanByte
  | _ => .op16

/-- The word of each row. -/
def wordOf : Instr → BitVec 16
  | .edge d => opWord 0x00 (0#7 ++ BitVec.ofBool d)
  | .recoveryDone => opWord 0x01 0
  | .tick => opWord 0x02 0
  | .hostLed b => opWord 0x03 b
  | .settleDone => opWord 0x04 0
  | .idleTimeout => opWord 0x05 0
  | .setupDone => opWord 0x06 0
  | .ackTimeout => opWord 0x07 0
  | .batTimeout => opWord 0x08 0
  | .pop => opWord 0x09 0
  | .send b => opWord 0x0A b
  | .ackPoll => opWord 0x0B 0
  | .resendService => opWord 0x0C 0
  | .decode b => opWord 0x0D b
  | .cmdEnter => opWord 0x0E 0
  | .cmdLeave => opWord 0x0F 0
  | .modsClear => opWord 0x10 0
  | .recHotkey => opWord 0x11 0
  | .playHotkey => opWord 0x12 0
  | .otherPress => opWord 0x13 0
  | .report len _ => opWord 0x14 (0#4 ++ len)
  | .service => opWord 0x15 0
  | .ledApply => opWord 0x16 0
  | .batPoll => opWord 0x17 0
  | .reset => opWord 0x18 0
  | .parity b => opWord 0x19 b
  | .reserved1A1B x => 0b1101#4 ++ x
  | .reserved1C1F x => 0b111#3 ++ x
  | .frameRx d p => 0#5 ++ 1#1 ++ BitVec.ofBool p ++ d ++ 0#1
  | .frameTx d p a => 0#4 ++ BitVec.ofBool a ++ 1#1 ++ BitVec.ofBool p ++ d ++ 0#1
  | .cmdReset => 0x00FF
  | .cmdScanset2 => 0xF002
  | .cmdSetLeds v => 0xED#8 ++ v
  | .cmdResend => 0x00FE
  | .respAck => 0x00FA
  | .respBatOk => 0x00AA
  | .respZero => 0x0000
  | .scanZero => 0x0000
  | .scanBreakF0 => 0x00F0
  | .scanExtE0 => 0x00E0
  | .scanPauseE1 => 0x00E1
  | .scanExt2Prefix x => byteWord (0b1110000#7 ++ BitVec.ofBool x)
  | .scanExt2Byte14 => 0x0014
  | .scanExt2Byte77 => 0x0077
  | .scanExt2Other b => byteWord b
  | .scanExtDiscard => 0x0012
  | .scanExtDiscard59 => 0x0059
  | .scanExtMod b => byteWord b
  | .scanExtPlain b => byteWord b
  | .scanKeyMod b => byteWord b
  | .scanKeyPlain b => byteWord b
  | .scanCommand b => byteWord b

/-- The report bus beside the word: only REPORT carries one (30_encoding R76). -/
def rbusOf : Instr → Bytes8
  | .report _ rbus => rbus
  | _ => Bytes8.zero

/-- The encoder: the offer that spells an instruction. -/
def encode (i : Instr) : Offer := ⟨formatOf i, wordOf i, rbusOf i⟩

/-! ## Bare words of the opcode table -/

/-- Where a bare word of the opcode table is offered: its format and, for a SCAN_BYTE row, the selector it is read in. Bits
alone do not name a row (the formats overlap, and one scan byte is another row in another mode), so this is ONE reading of
each word, for the words that carry no format (assumption log 2). -/
def tableSlot (nbits w : Nat) : Format × KMode × Bool :=
  if nbits ≤ 8 then
    if w = 0xFF ∨ w = 0xFE then (.cmd, .key, false)
    else if w = 0xFA ∨ w = 0xAA ∨ w = 0x00 then (.resp, .key, false)
    else if w = 0x14 then (.scanByte, .extendedKey2, false)
    else if w = 0x77 then (.scanByte, .extendedKey2, true)
    else if w = 0x12 ∨ w = 0x59 ∨ w = 0x1F ∨ w = 0x27 then (.scanByte, .extendedKey, false)
    else (.scanByte, .key, false)
  else if w / 256 = 0xED ∨ w = 0xF002 then (.cmd, .key, false)
  else if w / 0x1000 = 0 ∧ w / 0x400 % 2 = 1 ∧ w % 2 = 0 then
    (if w / 0x800 % 2 = 1 then (.hostSeq11, .key, false) else (.frame11, .key, false))
  else (.op16, .key, false)

/-- The offer of a bare word of the opcode table; the report bus, which the table gives no bits, is all zero. -/
def tableOffer (nbits w : Nat) : Offer := ⟨(tableSlot nbits w).1, BitVec.ofNat 16 w, Bytes8.zero⟩

/-- The instruction the decoder reads from a bare word of spec/opcode_table.json. -/
def decodeTableWord (nbits w : Nat) : Option Instr :=
  decode (tableSlot nbits w).2.1 (tableSlot nbits w).2.2 (tableOffer nbits w)

end Sys2Proof
end

