-- ==== Sys2Proof/Machine/Flags.lean ====
section
/-! DEFINITION. The combinational functions: odd parity and the frame check (40_codec), the LED remap (30_encoding R85), and
the unsigned timestamp comparison (00_scope R10). -/

namespace Sys2Proof.Machine

/-- `popcount8(b)`: the number of one bits (00_scope R10). -/
def popcount8 (b : Byte) : Nat := (bitsLsbFirst b).count true

/-- PARITY(b) = 1 XOR (popcount8(b) mod 2): the odd-parity bit (40 R88). -/
def parity (b : Byte) : Bool := Bool.xor true (popcount8 b % 2 == 1)

/-- The verdicts of FRAMECHECK (40 R89). -/
inductive Verdict where
  | ok
  | framingError
  | parityError
deriving DecidableEq, Repr

/-- FRAMECHECK(s, d, p, t): framing before parity (40 R89). -/
def frameCheck (s : Bool) (d : Byte) (p t : Bool) : Verdict :=
  if s ≠ false ∨ t ≠ true then .framingError
  else if p ≠ parity d then .parityError
  else .ok

/-- remap(u): USB LED order to PS/2 LED order; bits 7:3 are dropped (30_encoding R85). -/
def ledRemap (u : Byte) : Byte :=
  (BitVec.ofBool (u.getLsbD 1) ++ BitVec.ofBool (u.getLsbD 0) ++ BitVec.ofBool (u.getLsbD 2)).setWidth 8

/-- `ge32(a, b)`: a ≥ b as unsigned 32-bit values, no wrap-safe comparison (00_scope R10, decision D5). -/
def ge32 (a b : Millis) : Bool := decide (b.toNat ≤ a.toNat)

/-- The delay REPORT stores: `((now - last) mod 2^32) div 3` (44 R150, decision D40). -/
def macroDelay (now last : Millis) : Millis := (now - last) / BitVec.ofNat 32 Config.macroDiv

end Sys2Proof.Machine
end

