-- ==== Sys2Proof/Machine/State.lean ====
section
/-! DEFINITION. The state of the machine as plain data: every element of 10_state R18, the environment's state
(47_environment R164), the outputs (10_state R54) and the turns still to be taken; the reasons a step can stop; the state after
power-up. -/

namespace Sys2Proof.Machine

/-- X_MODE (10 R19): RX = 0, TX = 1. -/
inductive XMode where
  | rx
  | tx
deriving DecidableEq, Repr

/-- X_ACKST (10 R26): None = 0, Waiting = 1, Acked = 2, Nacked = 3. -/
inductive AckState where
  | none
  | waiting
  | acked
  | nacked
deriving DecidableEq, Repr

/-- S_STATE (10 R34): Idle = 0, WaitIdle = 1, Inhibit = 2, WaitAck = 3. -/
inductive SendState where
  | idle
  | waitIdle
  | inhibit
  | waitAck
deriving DecidableEq, Repr

/-- S_RESULT (10 R37): None = 0, Ok = 1, IdleTimeout = 2, Failed = 3. -/
inductive SendResult where
  | none
  | ok
  | idleTimeout
  | failed
deriving DecidableEq, Repr

/-- M_MODE (10 R42): Stopped = 0, Replaying = 1, Recording = 2; the value 3 is reserved and never written. -/
inductive MacroMode where
  | stopped
  | replaying
  | recording
deriving DecidableEq, Repr

/-- The event kind of a DECODE (43 R123). -/
inductive KeyEvent where
  | none
  | press
  | release
deriving DecidableEq, Repr

/-- One record of STEP (10 R49). -/
structure MacroStep where
  /-- report length, 1 to 8 in a stored step -/
  len : BitVec 4
  /-- report bytes, of which data[0..len-1] are meaningful -/
  data : Bytes8
  /-- milliseconds after the previous step, already divided by 3 -/
  delay : Millis
deriving DecidableEq, Repr, Inhabited

/-- The error events with their info (60 R173). -/
inductive ErrorEvent where
  /-- E_FRAMING: X_FERR after the increment -/
  | framing (ferr : Byte)
  /-- E_PARITY: the data byte -/
  | parity (b : Byte)
  /-- E_NACK: the data byte -/
  | nack (b : Byte)
  /-- E_OVERFLOW: the dropped byte -/
  | overflow (b : Byte)
  /-- E_ZERO_BYTE -/
  | zeroByte
  /-- E_IDLE_TIMEOUT: S_BYTE -/
  | idleTimeout (b : Byte)
  /-- E_ACK_TIMEOUT: S_BYTE, S_ATTEMPT -/
  | ackTimeout (b : Byte) (attempt : BitVec 2)
  /-- E_SEND_FAILED: S_BYTE -/
  | sendFailed (b : Byte)
  /-- E_BAT_FAIL, the one fatal event -/
  | batFail
  /-- E_MACRO_FULL -/
  | macroFull
  /-- E_KEYS_FULL: the code (environment) -/
  | keysFull (c : Code)
  /-- E_RELEASE_NOT_FOUND: the code (environment) -/
  | releaseNotFound (c : Code)
  /-- E_UNSUPPORTED: the code (environment) -/
  | unsupported (c : Code)
  /-- E_ECHO: the code (environment) -/
  | echo (c : Code)
deriving DecidableEq, Repr

/-- One entry of the block's output history (10 R54): a report handed to the USB report sender, or an error event. -/
inductive Output where
  /-- `emit usb(r, len)`: the bytes of the report, len of them -/
  | usb (report : List Byte)
  /-- `raise E(info)` -/
  | error (e : ErrorEvent)
deriving DecidableEq, Repr

/-- The value an operation returns to its issuer (10 R54, 30 R76). -/
inductive Result where
  /-- nothing: the `none` of RESEND_SERVICE, SERVICE and LED_APPLY, and the value before any operation returned one -/
  | none
  /-- a byte: POP's byte, RESEND_SERVICE's FE, the LED byte of SERVICE and LED_APPLY -/
  | byte (v : Byte)
  /-- DECODE's triple (43 R123) -/
  | decoded (mods : Byte) (code : Code) (event : KeyEvent)
  /-- PARITY's bit -/
  | bit (p : Bool)
deriving DecidableEq, Repr

/-- The labels of MAIN_PC (10 R53, 70 R190, 47 R163). -/
inductive MainLabel where
  | bootEnter
  | bootReset
  | bootWaitBat
  | bootScanset
  | bootLeave
  | lResend
  | lPop
  | lService
  | lLed
  | lSafety
deriving DecidableEq, Repr

/-- The hotkey operations the environment issues while it handles a press (47 R166). -/
inductive HotOp where
  | otherPress
  | recHotkey
  | playHotkey
  | reset
deriving DecidableEq, Repr

/-- The point the main context has reached inside the lines of its label (47 R163 to R170): what 10 R53 calls the return point
that is part of MAIN_PC's label. -/
inductive MainPoint where
  /-- the label's first line is next -/
  | start
  /-- L_POP: the popped byte is to be decoded -/
  | decode (b : Byte)
  /-- L_POP: the decoded triple is to be handled (47 R165) -/
  | handle (mods : Byte) (code : Code) (event : KeyEvent)
  /-- the environment is to issue a hotkey operation, then go on with R165 -/
  | issue (h : HotOp) (mods : Byte) (changed : Bool)
  /-- the end of R165: compare mods, emit a report if something changed -/
  | emit (mods : Byte) (changed : Bool)
  /-- the environment is to issue REPORT 8 with this report (47 R169) -/
  | report (r : Bytes8)
  /-- L_SAFETY, deadline expired: MODS_CLEAR is next (47 R170) -/
  | clear
  /-- L_SAFETY, after MODS_CLEAR: the all-clear report is next -/
  | cleared
  /-- the label's lines are done, but for the sends still pending or in progress -/
  | done
deriving DecidableEq, Repr

/-- One turn of the interleaving (20 R69): an operation offered by some agent, or the main context's next operation. -/
inductive Turn where
  | offer (o : Offer)
  | main
deriving DecidableEq, Repr

/-- The ring buffer's storage: cells (index, byte) in canonical form, indices strictly rising and below 32, no byte 0x00; an
unlisted slot reads 0x00, its reset content (10 R31). -/
abbrev Memory := List Host.Cell

/-- The whole state. -/
structure State where
  /-- X_MODE -/
  xMode : XMode
  /-- X_BITPOS -/
  xBitpos : BitVec 4
  /-- X_RXSHIFT -/
  xRxshift : Byte
  /-- X_RXPAR -/
  xRxpar : Bool
  /-- X_TXBYTE -/
  xTxbyte : Byte
  /-- X_TXPAR -/
  xTxpar : Bool
  /-- X_RECOVER -/
  xRecover : Bool
  /-- X_ACKST -/
  xAckst : AckState
  /-- X_RESEND -/
  xResend : Bool
  /-- X_FERR -/
  xFerr : Byte
  /-- X_PERR -/
  xPerr : Byte
  /-- X_OVF -/
  xOvf : Byte
  /-- RB[0..31] -/
  rb : Memory
  /-- RB_WR -/
  rbWr : BitVec 5
  /-- RB_RD -/
  rbRd : BitVec 5
  /-- CLK_OUT, true = released -/
  clkOut : Bool
  /-- DATA_OUT, true = released -/
  dataOut : Bool
  /-- S_STATE -/
  sState : SendState
  /-- S_BYTE -/
  sByte : Byte
  /-- S_ATTEMPT -/
  sAttempt : BitVec 2
  /-- S_RESULT -/
  sResult : SendResult
  /-- K_MODE -/
  kMode : KMode
  /-- K_MODS -/
  kMods : Byte
  /-- K_REL -/
  kRel : Bool
  /-- K_P2 -/
  kP2 : Bool
  /-- M_MODE -/
  mMode : MacroMode
  /-- M_CURSOR -/
  mCursor : BitVec 6
  /-- M_FILL -/
  mFill : BitVec 6
  /-- M_LAST -/
  mLast : Millis
  /-- M_NEXT -/
  mNext : Millis
  /-- M_LEDPH -/
  mLedph : BitVec 2
  /-- M_LEDT -/
  mLedt : Millis
  /-- STEP[0..39] -/
  steps : Vector MacroStep 40
  /-- T_MS -/
  tMs : Millis
  /-- H_LED -/
  hLed : Byte
  /-- H_DIRTY -/
  hDirty : Bool
  /-- MAIN_PC, the label -/
  mainPc : MainLabel
  /-- the point inside the label's lines (10 R53) -/
  mainAt : MainPoint
  /-- the bytes of a call sequence that are still to be sent (10 R53: SET_LEDS sends two bytes) -/
  sends : List Byte
  /-- E_KEYS[0..5], 0 = empty slot -/
  eKeys : Vector Code 6
  /-- E_PREVMODS -/
  ePrevmods : Byte
  /-- E_DEADLINE -/
  eDeadline : Millis
  /-- E_ARMED -/
  eArmed : Bool
  /-- the output history, oldest first (10 R54) -/
  history : List Output
  /-- the value the last result-returning operation gave its issuer (10 R54) -/
  result : Result
  /-- MODEL's own: the turns still to be taken, next first -/
  input : List Turn
  /-- MODEL's own: counter that the free values of STEP after a block reset are taken from -/
  freeCount : Nat
deriving DecidableEq, Repr

/-- The agents that issue operations (00 R4), named by a stop. -/
inductive Agent where
  | device
  | oracle
  | main
deriving DecidableEq, Repr

/-- Why the machine stops with a fault. -/
inductive Fault where
  /-- Raised by every operation with a precondition, when it does not hold: the operation has no step and the agent is stuck on
  it, an external agent's offer being refused (00 R12, 93 section 1). Safe: the spec gives no step either. -/
  | stuck (a : Agent)
  /-- Raised by REPORT and SERVICE when an index of STEP or of the chase pattern lies outside its array, which 20 R58 and 10 R47
  say cannot happen; no run from reset reaches it. Safe. -/
  | outsideArray
deriving DecidableEq, Repr

/-- Why the machine refuses an instruction. -/
inductive Refusal where
  /-- Raised by exec's arms alone, for an instruction that has no meaning yet. Safe. -/
  | notModelled (mnemonic : String)
  /-- Raised by step when the offered bits spell no operation, and by REPORT with len outside 1..8: 30 R78, "A model refuses it
  by name". Safe. -/
  | invalidWord
  /-- Raised by the two reserved rows, OPSEL 0x1A to 0x1F (30 R78). Safe. -/
  | reservedOpsel
deriving DecidableEq, Repr

/-- The machine right after power-up: the reset values of 10_state R18 and 47_environment R164. STEP, whose reset content the
spec leaves unspecified, is all zero (assumption log 5). -/
def State.reset : State where
  xMode := .rx
  xBitpos := 0
  xRxshift := 0
  xRxpar := false
  xTxbyte := 0
  xTxpar := false
  xRecover := false
  xAckst := .none
  xResend := false
  xFerr := 0
  xPerr := 0
  xOvf := 0
  rb := []
  rbWr := 0
  rbRd := 0
  clkOut := true
  dataOut := true
  sState := .idle
  sByte := 0
  sAttempt := 0
  sResult := .none
  kMode := .key
  kMods := 0
  kRel := false
  kP2 := false
  mMode := .stopped
  mCursor := 0
  mFill := 0
  mLast := 0
  mNext := 0
  mLedph := 0
  mLedt := 0
  steps := Vector.replicate 40 ⟨0, Bytes8.zero, 0⟩
  tMs := 0
  hLed := 0
  hDirty := false
  mainPc := .bootEnter
  mainAt := .start
  sends := []
  eKeys := Vector.replicate 6 0
  ePrevmods := 0
  eDeadline := 0
  eArmed := false
  history := []
  result := .none
  input := []
  freeCount := 0

end Sys2Proof.Machine
end

