-- ==== Sys2Proof/Machine/Ops.lean ====
section
/-! DEFINITION. The named operations over the state that the meanings share: the ring buffer's storage and its push and pop, the
macro store, the outputs, `raise` (the one way an error event is taken, 60_exceptions R173, R174) and `blockReset` (the one
restart, 70_reset_and_hazards R188). -/

namespace Sys2Proof.Machine

/-- The outcome of one operation. -/
abbrev Outcome := Host.Outcome State Fault Refusal

/-- Run `f` on the next state of an outcome; a stop stays a stop. -/
def andThen (o : Outcome) (f : State → Outcome) : Outcome :=
  match o with
  | .next s => f s
  | .fault r => .fault r
  | .refused r => .refused r

/-- An operation with a precondition (00 R12): without it the operation has no step and its agent is stuck. -/
def guarded (pre : Bool) (a : Agent) (o : Outcome) : Outcome := if pre then o else .fault (.stuck a)

/-! ## The ring buffer's storage -/

/-- `MemRead(RB[a], 1)`: an unlisted slot reads 0x00. -/
def Memory.read : Memory → Nat → Byte
  | [], _ => 0#8
  | (b, v) :: m, a => if a = b then v else Memory.read m a

/-- `MemWrite(RB[a], 1, v)`, keeping the canonical form: writing 0x00 removes the entry. -/
def Memory.write : Memory → Nat → Byte → Memory
  | [], a, v => if v = 0#8 then [] else [(a, v)]
  | (b, w) :: m, a, v =>
    if a < b then (if v = 0#8 then (b, w) :: m else (a, v) :: (b, w) :: m)
    else if a = b then (if v = 0#8 then m else (a, v) :: m)
    else (b, w) :: Memory.write m a v

/-- The canonical form: indices strictly rising from `lo` and below 32, no byte 0x00. -/
def Memory.wfFrom : Nat → Memory → Bool
  | _, [] => true
  | lo, (a, v) :: m => decide (lo ≤ a ∧ a < Config.rbCap) && v != 0#8 && Memory.wfFrom (a + 1) m

/-- The canonical form of the ring buffer's storage. -/
def Memory.wf (m : Memory) : Bool := Memory.wfFrom 0 m

/-- `RB[i]`. -/
def rbAt (s : State) (i : BitVec 5) : Byte := Memory.read s.rb i.toNat

/-- `RB[i] <- v`. -/
def rbSet (s : State) (i : BitVec 5) (v : Byte) : State := { s with rb := Memory.write s.rb i.toNat v }

/-! ## Outputs -/

/-- `raise E(info)`: append an error event to the output; control is not transferred (00 R10, 60 R174). -/
def raise (e : ErrorEvent) (s : State) : State := { s with history := s.history ++ [.error e] }

/-- `emit usb(r, len)`: hand a report to the USB report sender (00 R10). -/
def emitUsb (r : List Byte) (s : State) : State := { s with history := s.history ++ [.usb r] }

/-- Return a value to the issuing agent (30 R76). -/
def ret (r : Result) (s : State) : State := { s with result := r }

/-- The number of an error event (60 R173). -/
def ErrorEvent.code : ErrorEvent → Nat
  | .framing _ => 1
  | .parity _ => 2
  | .nack _ => 3
  | .overflow _ => 4
  | .zeroByte => 5
  | .idleTimeout _ => 6
  | .ackTimeout _ _ => 7
  | .sendFailed _ => 8
  | .batFail => 9
  | .macroFull => 10
  | .keysFull _ => 16
  | .releaseNotFound _ => 17
  | .unsupported _ => 18
  | .echo _ => 19

/-! ## Ring buffer -/

/-- Ring-buffer push of a non-zero byte (41 R102): only into an empty slot, else the byte is dropped and counted. -/
def rbPush (b : Byte) (s : State) : State :=
  if rbAt s s.rbWr = 0#8 then { rbSet s s.rbWr b with rbWr := s.rbWr + 1 }
  else raise (.overflow b) { s with xOvf := s.xOvf + 1 }

/-- The byte at the read index (42 R105). -/
def rbFront (s : State) : Byte := rbAt s s.rbRd

/-- POP's effect on the buffer (42 R105): empty the slot and advance, or nothing when the buffer is empty. -/
def rbPop (s : State) : State :=
  if rbFront s = 0#8 then s else { rbSet s s.rbRd 0 with rbRd := s.rbRd + 1 }

/-! ## Macro store -/

/-- `STEP[j]`, none outside the array. -/
def stepAt (s : State) (j : Nat) : Option MacroStep := s.steps[j]?

/-- `STEP[j] <- m`. -/
def stepSet (s : State) (j : Nat) (m : MacroStep) : State := { s with steps := s.steps.setIfInBounds j m }

/-- Leave a macro mode: M_MODE ← Stopped and H_DIRTY ← 1, the LED restore (44 R155). -/
def macroStop (s : State) : State := { s with mMode := .stopped, hDirty := true }

/-! ## Main position -/

/-- `main_pc <- L`: the first line of label L is next. -/
def goto (l : MainLabel) (s : State) : State := { s with mainPc := l, mainAt := .start }

/-! ## Block reset -/

/-- STEP after the n-th block reset: unspecified (70 R188), a free value for every field (assumption log 6). -/
def freeSteps (n : Nat) : Vector MacroStep 40 :=
  ⟨((List.range 40).map fun j =>
      { len := Config.freeStepLen n j,
        data := bytes8 ((List.range 8).map fun k => Config.freeStepByte n j k),
        delay := Config.freeStepDelay n j }).toArray, by simp⟩

/-- RESET (70 R188): every element at its reset value, the environment's state too; STEP unspecified; the outputs already
recorded and the turns still to be taken are not state of the block and stay. -/
def blockReset (s : State) : State :=
  { State.reset with
    steps := freeSteps s.freeCount,
    freeCount := s.freeCount + 1,
    history := s.history,
    result := s.result,
    input := s.input }

end Sys2Proof.Machine
end

