-- ==== Sys2Proof/Machine/Control.lean ====
section
/-! DEFINITION. RESET and BAT_TIMEOUT (70_reset_and_hazards R188, 42_transceiver_tx R122), the pure PARITY (40_codec R88), and
the two reserved rows (30_encoding R78). -/

namespace Sys2Proof.Machine

/-- RESET (70 R188). -/
def execReset (s : State) : Outcome := .next (blockReset s)

/-- BAT_TIMEOUT (42 R122): E_BAT_FAIL, then the watchdog-forced restart in the same step. -/
def execBatTimeout (s : State) : Outcome :=
  guarded (s.mainPc == .bootWaitBat) .oracle (.next (blockReset (raise .batFail s)))

/-- PARITY b (40 R88): returns the odd-parity bit. -/
def execParity (b : Byte) (s : State) : Outcome := .next (ret (.bit (parity b)) s)

/-- RESERVED_1A_1B (30 R78): an invalid word has no step; refused by name. -/
def execReserved1A1B (_x : BitVec 12) (_s : State) : Outcome := .refused .reservedOpsel

/-- RESERVED_1C_1F (30 R78). -/
def execReserved1C1F (_x : BitVec 13) (_s : State) : Outcome := .refused .reservedOpsel

end Sys2Proof.Machine
end

