-- ==== Sys2Proof/Machine/Edge.lean ====
section
/-! DEFINITION. EDGE and RECOVERY_DONE: the edge ISR's receive positions (41_transceiver_rx), its transmit positions
(42_transceiver_tx R111), the framing error and its recovery. -/

namespace Sys2Proof.Machine

/-- Framing error (41 R99). -/
def framingError (s : State) : State :=
  raise (.framing (s.xFerr + 1)) { s with xFerr := s.xFerr + 1, xBitpos := 0, xRecover := true }

/-- Frame completion with data b and parity p (41 R101). -/
def frameDone (b : Byte) (p : Bool) (s : State) : State :=
  if p ≠ parity b then
    if s.xAckst = .waiting then raise (.nack b) { s with xPerr := s.xPerr + 1, xAckst := .nacked }
    else raise (.parity b) { s with xPerr := s.xPerr + 1, xResend := true }
  else if b = Config.ack ∧ s.xAckst = .waiting then { s with xAckst := .acked }
  else if b = 0x00#8 then raise .zeroByte s
  else rbPush b s

/-- Receive position 0, the start bit (41 R95). -/
def rxStart (d : Bool) (s : State) : State :=
  if d then framingError s else { s with xRxshift := 0, xBitpos := 1 }

/-- Receive positions 1 to 8, the data bits (41 R96). -/
def rxData (d : Bool) (s : State) : State :=
  { s with xRxshift := putBit s.xRxshift (s.xBitpos.toNat - 1) d, xBitpos := s.xBitpos + 1 }

/-- Receive position 9, the parity bit (41 R97). -/
def rxParity (d : Bool) (s : State) : State := { s with xRxpar := d, xBitpos := 10 }

/-- Receive position 10, the stop bit (41 R98). -/
def rxStop (d : Bool) (s : State) : State :=
  if d then frameDone s.xRxshift s.xRxpar { s with xBitpos := 0 }
  else framingError { s with xBitpos := 0 }

/-- One edge in receive mode (41 R93). The case over X_BITPOS has no arm above 10: no run reaches it (assumption log 7). -/
def rxEdge (d : Bool) (s : State) : Outcome :=
  if s.xBitpos = 0#4 then .next (rxStart d s)
  else if s.xBitpos.toNat ≤ 8 then .next (rxData d s)
  else if s.xBitpos = 9#4 then .next (rxParity d s)
  else if s.xBitpos = 10#4 then .next (rxStop d s)
  else .fault (.stuck .device)

/-- One edge in transmit mode (42 R111); the sampled level is ignored. -/
def txEdge (s : State) : State :=
  if 1 ≤ s.xBitpos.toNat ∧ s.xBitpos.toNat ≤ 8 then
    { s with dataOut := s.xTxbyte.getLsbD (s.xBitpos.toNat - 1), xBitpos := s.xBitpos + 1 }
  else if s.xBitpos = 9#4 then { s with dataOut := s.xTxpar, xBitpos := 10 }
  else if s.xBitpos = 10#4 then { s with dataOut := true, xBitpos := 11 }
  else if s.xBitpos = 11#4 then { s with xMode := .rx, xBitpos := 0 }
  else s

/-- One active edge with sampled level d: precondition CLK_OUT = 1 (30 R77), lost during recovery (41 R94), else by mode
(41 R93). -/
def edgeOp (d : Bool) (s : State) : Outcome :=
  guarded s.clkOut .device
    (if s.xRecover then .next s
     else if s.xMode = .tx then .next (txEdge s)
     else rxEdge d s)

/-- A run of edges, oldest first. -/
def runEdges : List Bool → State → Outcome
  | [], s => .next s
  | d :: ds, s => andThen (edgeOp d s) (runEdges ds)

/-- EDGE d (41 R93). -/
def execEdge (d : Bool) (s : State) : Outcome := edgeOp d s

/-- RECOVERY_DONE (41 R100): the edge interrupt re-arms; a transmission set up meanwhile keeps its position. -/
def execRecoveryDone (s : State) : Outcome :=
  guarded s.xRecover .oracle
    (.next { s with xRecover := false, xBitpos := if s.xMode = .rx then 0 else s.xBitpos })

end Sys2Proof.Machine
end

