-- ==== Sys2Proof/Machine/Send.lean ====
section
/-! DEFINITION. The main context's side of the transceiver: POP, SEND and the states of its blocking procedure, the resend
service, the wait for 0xAA (42_transceiver_tx). -/

namespace Sys2Proof.Machine

/-- SEND b: start a send (42 R107). -/
def sendStart (b : Byte) (s : State) : State :=
  { s with sByte := b, sAttempt := 1, sResult := .none, sState := .waitIdle }

/-- The clock-inhibit delay has passed (42 R110): start bit, transmit mode, send context, clock released, in one step. -/
def setupTransmit (s : State) : State :=
  { s with dataOut := false, xTxbyte := s.sByte, xTxpar := parity s.sByte, xMode := .tx, xBitpos := 1,
           xAckst := .waiting, clkOut := true, sState := .waitAck }

/-- A failed attempt (42 R114): retry from the idle wait, or give up after the third. -/
def attemptFailed (s : State) : State :=
  if s.sAttempt.toNat < Config.sendAttempts then { s with sAttempt := s.sAttempt + 1, sState := .waitIdle }
  else raise (.sendFailed s.sByte) { s with sState := .idle, sResult := .failed }

/-- One pass of the wait for 0xAA (42 R121): any other byte is discarded. -/
def batPollOnce (s : State) : State :=
  if rbFront s = Config.batOk then goto .bootScanset (rbPop s) else rbPop s

/-- POP (42 R105). -/
def execPop (s : State) : Outcome :=
  guarded (s.sState == .idle) .main (.next (ret (.byte (rbFront s)) (rbPop s)))

/-- SEND b (42 R107). -/
def execSend (b : Byte) (s : State) : Outcome := guarded (s.sState == .idle) .main (.next (sendStart b s))

/-- SETTLE_DONE (42 R108): inhibit the bus; a partial receive frame is abandoned. -/
def execSettleDone (s : State) : Outcome :=
  guarded (s.sState == .waitIdle) .oracle
    (.next { s with clkOut := false, xBitpos := 0, xRxshift := 0, sState := .inhibit })

/-- IDLE_TIMEOUT (42 R109): the send ends, on any attempt. -/
def execIdleTimeout (s : State) : Outcome :=
  guarded (s.sState == .waitIdle) .oracle
    (.next (raise (.idleTimeout s.sByte) { s with sState := .idle, sResult := .idleTimeout }))

/-- SETUP_DONE (42 R110). -/
def execSetupDone (s : State) : Outcome := guarded (s.sState == .inhibit) .oracle (.next (setupTransmit s))

/-- ACK_POLL (42 R112). R112's case has no arm for None, which 10 R55 says WaitAck never holds (assumption log 7). -/
def execAckPoll (s : State) : Outcome :=
  guarded (s.sState == .waitAck) .main
    (match s.xAckst with
     | .waiting => .next s
     | .acked => .next { s with xAckst := .none, sState := .idle, sResult := .ok }
     | .nacked => .next (attemptFailed { s with xAckst := .none })
     | .none => .fault (.stuck .main))

/-- A transmission cut short is abandoned (42 R113). -/
def abandonTransmit (s : State) : State :=
  if s.xMode = .tx then { s with xMode := .rx, xBitpos := 0, dataOut := true } else s

/-- ACK_TIMEOUT (42 R113): E_ACK_TIMEOUT, then the failed attempt. -/
def execAckTimeout (s : State) : Outcome :=
  guarded (s.sState == .waitAck && s.xAckst == .waiting) .oracle
    (.next (attemptFailed
      (raise (.ackTimeout s.sByte s.sAttempt) { abandonTransmit s with xAckst := .none })))

/-- RESEND_SERVICE (42 R117): returns FE and clears the request, or none. -/
def execResendService (s : State) : Outcome :=
  guarded (s.sState == .idle) .main
    (if s.xResend then .next (ret (.byte Config.cmdResend) { s with xResend := false })
     else .next (ret .none s))

/-- BAT_POLL (42 R121). -/
def execBatPoll (s : State) : Outcome :=
  guarded (s.mainPc == .bootWaitBat && s.sState == .idle) .main (.next (batPollOnce s))

end Sys2Proof.Machine
end

