-- ==== Sys2Proof/Machine/Frames.lean ====
section
/-! DEFINITION. The rows that stand for more than one operation: whole frames on the wire (30_encoding R74, R75), the device's
special responses (R83) and the host's command bytes (R82). A frame is its eleven EDGE operations; a command begins the
exchange of 42_transceiver_tx R117 to R120. -/

namespace Sys2Proof.Machine

/-- An accepted frame with good parity arrives: `frame b` of 30_encoding R87. -/
def goodFrame (b : Byte) (s : State) : Outcome := runEdges (frameLevels false b (parity b) true) s

/-- `repeat BAT_POLL` until it moves MAIN_PC on, at most n passes (42 R120). -/
def batWait : Nat → State → State
  | 0, s => s
  | n + 1, s => if s.mainPc = .bootWaitBat ∧ s.sState = .idle then batWait n (batPollOnce s) else s

/-- FRAME_RX (30 R74): start bit 0, data d, parity bit p, stop bit 1, one EDGE each (assumption log 9). -/
def execFrameRx (d : Byte) (p : Bool) (s : State) : Outcome := runEdges (frameLevels false d p true) s

/-- FRAME_TX (30 R75): the start bit is presented at SETUP_DONE, then the device clocks eleven edges, the last with level a. It
has a step only where the sequence is the one the block presents: S_STATE = Inhibit, d = S_BYTE, p = PARITY(S_BYTE)
(assumption log 10). -/
def execFrameTx (d : Byte) (p a : Bool) (s : State) : Outcome :=
  guarded (s.sState == .inhibit && d == s.sByte && p == parity s.sByte) .device
    (runEdges (txLevels a) (setupTransmit s))

/-- The point of the main context after a command has begun: done, if the command is the line of label l and l's line is the next
one; else where it was, so that no label and no line is skipped (10 R53, assumption log 11). -/
def pointAfterCommand (l : MainLabel) (s : State) : MainPoint :=
  if s.mainPc = l ∧ s.mainAt = .start then .done else s.mainAt

/-- CMD_RESET (42 R120): `call SEND(0xFF)`. At BOOT_RESET it is the label's own line, and the main context goes on to BOOT_WAIT_BAT
when the send returns. DESIGN CHOICE (assumption log 11): the spec issues 0xFF at BOOT_RESET only; at any other point the row
sends its byte, and leaves MAIN_PC, the line under way and the bytes still to be sent as they are. -/
def execCmdReset (s : State) : Outcome :=
  guarded (s.sState == .idle) .main
    (.next { sendStart Config.cmdReset s with mainAt := pointAfterCommand .bootReset s })

/-- CMD_SCANSET2 (42 R119): `call SEND(0xF0)`, and 0x02 stays to be sent whatever the first result. -/
def execCmdScanset2 (s : State) : Outcome :=
  guarded (s.sState == .idle) .main
    (.next { sendStart Config.cmdScanset s with mainAt := pointAfterCommand .bootScanset s, sends := Config.scanset2 :: s.sends })

/-- CMD_SET_LEDS v (42 R118): `call SEND(0xED)`, and v stays to be sent whatever the first result. -/
def execCmdSetLeds (v : Byte) (s : State) : Outcome :=
  guarded (s.sState == .idle) .main (.next { sendStart Config.cmdLeds s with sends := v :: s.sends })

/-- CMD_RESEND (42 R117, 10 R27): `call SEND(0xFE)`; issuing the resend clears the request. -/
def execCmdResend (s : State) : Outcome :=
  guarded (s.sState == .idle) .main (.next { sendStart Config.cmdResend s with xResend := false })

/-- RESP_ACK (30 R83, 41 R101): 0xFA arrives; withheld only while X_ACKST = Waiting. -/
def execRespAck (s : State) : Outcome := goodFrame Config.ack s

/-- RESP_BAT_OK (30 R83, 42 R121): 0xAA arrives; in BOOT_WAIT_BAT the polls of R120 then take it as reset complete
(assumption log 12). -/
def execRespBatOk (s : State) : Outcome :=
  andThen (goodFrame Config.batOk s) (fun t => .next (batWait Config.rbCap t))

/-- RESP_ZERO (30 R83, 41 R101): 0x00 arrives and cannot be stored. -/
def execRespZero (s : State) : Outcome := goodFrame 0x00 s

end Sys2Proof.Machine
end

