-- ==== Sys2Proof/Machine/Macro.lean ====
section
/-! DEFINITION. The macro recorder and player (44_macro): the hotkeys, REPORT, and SERVICE with its replay part and LED chase. -/

namespace Sys2Proof.Machine

/-- Replay abort (44 R146): M_CURSOR keeps its value, and no report is emitted (ABORT_SENDS_RELEASE = false, 00 R8). -/
def replayAbort (s : State) : State := macroStop s

/-- REC_HOTKEY (44 R147). -/
def execRecHotkey (s : State) : Outcome :=
  match s.mMode with
  | .stopped =>
    .next { s with mMode := .recording, mCursor := 0, mFill := 0, mLast := s.tMs, mLedph := 0, mLedt := s.tMs }
  | .recording => .next (macroStop s)
  | .replaying => .next (replayAbort s)

/-- PLAY_HOTKEY (44 R148). -/
def execPlayHotkey (s : State) : Outcome :=
  match s.mMode with
  | .stopped =>
    .next { s with mMode := .replaying, mCursor := 0, mNext := s.tMs, mLedph := 0, mLedt := s.tMs }
  | .replaying => .next (replayAbort s)
  | .recording => .next s

/-- OTHER_PRESS (44 R149). -/
def execOtherPress (s : State) : Outcome :=
  .next (if s.mMode = .replaying then replayAbort s else s)

/-- The delay of the step REPORT is about to store (44 R150): zero for the first. -/
def stepDelay (s : State) : Millis := if s.mFill = 0#6 then 0 else macroDelay s.tMs s.mLast

/-- The step REPORT is about to store (44 R150). -/
def newStep (len : BitVec 4) (r : Bytes8) (s : State) : MacroStep := ⟨len, padded len r, stepDelay s⟩

/-- Append a step at M_FILL (44 R150). -/
def stepAppend (m : MacroStep) (s : State) : State :=
  { stepSet s s.mFill.toNat m with mFill := s.mFill + 1, mCursor := s.mFill + 1, mLast := s.tMs }

/-- The 40th step fills the store: the mode becomes Stopped (44 R150, R157). -/
def fullCheck (s : State) : State :=
  if s.mFill.toNat = Config.macroCap then raise .macroFull (macroStop s) else s

/-- REPORT len with RBUS (44 R150). -/
def execReport (len : BitVec 4) (r : Bytes8) (s : State) : Outcome :=
  if validLen len = false then .refused .invalidWord
  else if s.mMode ≠ .recording then .next s
  else if s.mFill = 0#6 ∧ emptyReport len r then .next s
  else if s.mFill.toNat < Config.macroCap then .next (fullCheck (stepAppend (newStep len r s) s))
  else .fault .outsideArray

/-- `emit usb(STEP[j].data[0..len-1], len)` (44 R152). -/
def emitStep (m : MacroStep) (s : State) : State := emitUsb (firstBytes m.len m.data) s

/-- The schedule after a sent step: M_NEXT grows by the next step's delay, if there is one (44 R152). -/
def scheduleNext (s : State) : Outcome :=
  if s.mCursor.toNat < s.mFill.toNat then
    match stepAt s s.mCursor.toNat with
    | some m => .next { s with mNext := s.mNext + m.delay }
    | none => .fault .outsideArray
  else .next s

/-- Replay of one due step (44 R152). -/
def replayDue (s : State) : Outcome :=
  if ge32 s.tMs s.mNext then
    match stepAt s s.mCursor.toNat with
    | some m => scheduleNext { emitStep m s with mCursor := s.mCursor + 1 }
    | none => .fault .outsideArray
  else .next s

/-- The synthetic all-keys-released report (44 R153). -/
def emitRelease (s : State) : State := emitUsb (bytesOf Bytes8.zero) s

/-- End of replay (44 R153): the synthetic release, unless the final step was already empty. -/
def replayEnd (s : State) : Outcome :=
  if s.mFill = 0#6 then .next (macroStop (emitRelease s))
  else match stepAt s (s.mFill.toNat - 1) with
    | some m => .next (macroStop (if emptyReport m.len m.data then s else emitRelease s))
    | none => .fault .outsideArray

/-- SERVICE's replay part (44 R151). -/
def servicePlay (s : State) : Outcome :=
  if s.mMode = .replaying then
    (if s.mCursor.toNat < s.mFill.toNat then replayDue s else replayEnd s)
  else .next s

/-- The chase pattern of the active mode (44 R154). -/
def chasePattern (s : State) : List Byte :=
  if s.mMode = .replaying then Config.ledChaseReplay else Config.ledChaseRecord

/-- The next phase, `(M_LEDPH + 1) mod 3` (44 R154). -/
def nextPhase (ph : BitVec 2) : BitVec 2 := BitVec.ofNat 2 ((ph.toNat + 1) % Config.ledPhases)

/-- LED chase, the last part of SERVICE (44 R154): returns a PS/2 LED byte when a phase is due in an active mode, else none. -/
def serviceLeds (s : State) : Outcome :=
  if s.mMode ≠ .stopped ∧ ge32 s.tMs s.mLedt = true then
    match (chasePattern s)[s.mLedph.toNat]? with
    | some led =>
      .next (ret (.byte led)
        { s with mLedph := nextPhase s.mLedph, mLedt := s.tMs + BitVec.ofNat 32 Config.ledPeriodMs })
    | none => .fault .outsideArray
  else .next (ret .none s)

/-- SERVICE (44 R151). -/
def execService (s : State) : Outcome :=
  guarded (s.sState == .idle) .main (andThen (servicePlay s) serviceLeds)

end Sys2Proof.Machine
end

