-- ==== Sys2Proof/Machine/Scan.lean ====
section
/-! DEFINITION. The scan-code decoder (43_decoder): one effect per rule R125 to R138, DECODE's dispatch over them (R124), the
rows of the byte map each under its own selector, and the control operations CMD_ENTER, CMD_LEAVE and MODS_CLEAR. -/

namespace Sys2Proof.Machine

/-- DECODE's outputs: K_MODS after the step, the code, the event (43 R123). -/
def scanResult (code : Code) (ev : KeyEvent) (s : State) : State := ret (.decoded s.kMods code ev) s

/-- `event <- by K_REL` (43 preamble). -/
def eventByRel (s : State) : KeyEvent := if s.kRel then .release else .press

/-- A byte in Command (43 R125): ignored. -/
def scanIgnored (s : State) : State := scanResult 0 .none s

/-- 0x00 in any mode but Command (43 R126): no change. -/
def scanZero (s : State) : State := scanResult 0 .none s

/-- 0xF0, the release prefix (43 R127). -/
def scanBreak (s : State) : State := scanResult 0 .none { s with kRel := true }

/-- 0xE0 in Key or ExtendedKey (43 R128). -/
def scanEnterExt (s : State) : State := scanResult 0 .none { s with kMode := .extendedKey }

/-- 0xE1 in Key or ExtendedKey (43 R129). -/
def scanEnterExt2 (s : State) : State := scanResult 0 .none { s with kMode := .extendedKey2, kP2 := false }

/-- The sequence is abandoned and the byte consumed (43 R130, R133). -/
def scanAbort (s : State) : State := scanResult 0 .none { s with kMode := .key, kRel := false, kP2 := false }

/-- 0x14 as the first continuation byte of the pause sequence (43 R131). -/
def scanPauseFirst (s : State) : State := scanResult 0 .none { s with kP2 := true }

/-- 0x77 as the last byte of the pause sequence (43 R132). -/
def scanPause (s : State) : State :=
  scanResult Config.pauseCode (eventByRel s) { s with kMode := .key, kRel := false, kP2 := false }

/-- 0x12 or 0x59 in ExtendedKey: discarded (43 R134). -/
def scanDiscard (s : State) : State := scanResult 0 .none { s with kMode := .key, kRel := false }

/-- A modifier in ExtendedKey: bit k of K_MODS is set on make, cleared on break (43 R135). -/
def scanExtModifier (k : Nat) (s : State) : State :=
  scanResult 0 .none { s with kMods := putBit s.kMods k (!s.kRel), kMode := .key, kRel := false }

/-- Any other final byte in ExtendedKey (43 R136). -/
def scanExtCode (b : Byte) (s : State) : State :=
  scanResult (Config.extTag ||| b.setWidth 32) (eventByRel s) { s with kMode := .key, kRel := false }

/-- A modifier in Key (43 R137). -/
def scanKeyModifier (k : Nat) (s : State) : State :=
  scanResult 0 .none { s with kMods := putBit s.kMods k (!s.kRel), kRel := false }

/-- Any other final byte in Key (43 R138). -/
def scanKeyCode (b : Byte) (s : State) : State :=
  scanResult (b.setWidth 32) (eventByRel s) { s with kRel := false }

/-- ExtendedKey's bytes that are neither 0x00, 0xF0, 0xE0 nor 0xE1 (43 R124). -/
def decodeInExt (b : Byte) (s : State) : State :=
  if isExtDiscard b then scanDiscard s
  else match extModBit b with
    | some k => scanExtModifier k s
    | none => scanExtCode b s

/-- Key's bytes that are neither 0x00, 0xF0, 0xE0 nor 0xE1 (43 R124). -/
def decodeInKey (b : Byte) (s : State) : State :=
  match keyModBit b with
  | some k => scanKeyModifier k s
  | none => scanKeyCode b s

/-- ExtendedKey2's bytes that are neither 0x00 nor 0xF0 (43 R124). -/
def decodeInExt2 (b : Byte) (s : State) : State :=
  if b = Config.pfxExt ∨ b = Config.pfxExt2 then scanAbort s
  else if b = 0x14#8 ∧ s.kP2 = false then scanPauseFirst s
  else if b = 0x77#8 ∧ s.kP2 = true then scanPause s
  else scanAbort s

/-- DECODE's dispatch: the first condition that matches selects the rule (43 R124). -/
def decodeByte (b : Byte) (s : State) : State :=
  if s.kMode = .command then scanIgnored s
  else if b = 0x00#8 then scanZero s
  else if b = Config.pfxBreak then scanBreak s
  else if s.kMode = .extendedKey2 then decodeInExt2 b s
  else if b = Config.pfxExt then scanEnterExt s
  else if b = Config.pfxExt2 then scanEnterExt2 s
  else if s.kMode = .extendedKey then decodeInExt b s
  else decodeInKey b s

/-- A row of the byte map: it has a step only where its selector and byte class hold (assumption log 3). -/
def scanRowOp (i : Instr) (s : State) (t : State) : Outcome :=
  guarded (i.wf && selects i s.kMode s.kP2) .main (.next t)

/-- DECODE b (43 R124). -/
def execDecode (b : Byte) (s : State) : Outcome := .next (decodeByte b s)

/-- SCAN_ZERO (43 R126). -/
def execScanZero (s : State) : Outcome := scanRowOp .scanZero s (scanZero s)

/-- SCAN_BREAK_F0 (43 R127). -/
def execScanBreakF0 (s : State) : Outcome := scanRowOp .scanBreakF0 s (scanBreak s)

/-- SCAN_EXT_E0 (43 R128). -/
def execScanExtE0 (s : State) : Outcome := scanRowOp .scanExtE0 s (scanEnterExt s)

/-- SCAN_PAUSE_E1 (43 R129). -/
def execScanPauseE1 (s : State) : Outcome := scanRowOp .scanPauseE1 s (scanEnterExt2 s)

/-- SCAN_EXT2_PREFIX (43 R130). -/
def execScanExt2Prefix (x : Bool) (s : State) : Outcome := scanRowOp (.scanExt2Prefix x) s (scanAbort s)

/-- SCAN_EXT2_14 (43 R131). -/
def execScanExt2Byte14 (s : State) : Outcome := scanRowOp .scanExt2Byte14 s (scanPauseFirst s)

/-- SCAN_EXT2_77 (43 R132). -/
def execScanExt2Byte77 (s : State) : Outcome := scanRowOp .scanExt2Byte77 s (scanPause s)

/-- SCAN_EXT2_OTHER (43 R133). -/
def execScanExt2Other (b : Byte) (s : State) : Outcome := scanRowOp (.scanExt2Other b) s (scanAbort s)

/-- SCAN_EXT_DISCARD (43 R134). -/
def execScanExtDiscard (s : State) : Outcome := scanRowOp .scanExtDiscard s (scanDiscard s)

/-- SCAN_EXT_DISCARD_59 (43 R134). -/
def execScanExtDiscard59 (s : State) : Outcome := scanRowOp .scanExtDiscard59 s (scanDiscard s)

/-- SCAN_EXT_MOD (43 R135). -/
def execScanExtMod (b : Byte) (s : State) : Outcome :=
  scanRowOp (.scanExtMod b) s (scanExtModifier ((extModBit b).getD 0) s)

/-- SCAN_EXT_PLAIN (43 R136). -/
def execScanExtPlain (b : Byte) (s : State) : Outcome := scanRowOp (.scanExtPlain b) s (scanExtCode b s)

/-- SCAN_KEY_MOD (43 R137). -/
def execScanKeyMod (b : Byte) (s : State) : Outcome :=
  scanRowOp (.scanKeyMod b) s (scanKeyModifier ((keyModBit b).getD 0) s)

/-- SCAN_KEY_PLAIN (43 R138). -/
def execScanKeyPlain (b : Byte) (s : State) : Outcome := scanRowOp (.scanKeyPlain b) s (scanKeyCode b s)

/-- SCAN_COMMAND (43 R125). -/
def execScanCommand (b : Byte) (s : State) : Outcome := scanRowOp (.scanCommand b) s (scanIgnored s)

/-- CMD_ENTER (43 R139): K_MODS, K_REL and K_P2 are unchanged. -/
def execCmdEnter (s : State) : Outcome := .next { s with kMode := .command }

/-- CMD_LEAVE (43 R140). -/
def execCmdLeave (s : State) : Outcome :=
  guarded (s.kMode == .command) .main (.next { s with kMode := .key, kRel := false, kP2 := false })

/-- MODS_CLEAR (43 R141): K_MODE and K_P2 are unchanged. -/
def execModsClear (s : State) : Outcome := .next { s with kMods := 0, kRel := false }

end Sys2Proof.Machine
end

