-- ==== Sys2Proof/Machine/Timebase.lean ====
section
/-! DEFINITION. TICK, HOST_LED and LED_APPLY (45_timebase_host). -/

namespace Sys2Proof.Machine

/-- TICK (45 R158): T_MS ← (T_MS + 1) mod 2^32. -/
def execTick (s : State) : Outcome := .next { s with tMs := s.tMs + 1 }

/-- HOST_LED b (45 R160). -/
def execHostLed (b : Byte) (s : State) : Outcome := .next { s with hLed := b, hDirty := true }

/-- LED_APPLY (45 R161): returns remap(H_LED) once, when no macro is active. -/
def execLedApply (s : State) : Outcome :=
  guarded (s.sState == .idle) .main
    (if s.hDirty ∧ s.mMode = .stopped then .next (ret (.byte (ledRemap s.hLed)) { s with hDirty := false })
     else .next (ret .none s))

end Sys2Proof.Machine
end

