-- ==== Sys2Proof/Machine/Dispatch.lean ====
section
/-! DEFINITION. The dispatch: one arm per constructor of Instr, each one direct call of that instruction's meaning. -/

namespace Sys2Proof.Machine

def exec (i : Instr) (s : State) : Host.Outcome State Fault Refusal :=
  match i with
  | .edge d => Sys2Proof.Machine.execEdge d s
  | .recoveryDone => Sys2Proof.Machine.execRecoveryDone s
  | .tick => Sys2Proof.Machine.execTick s
  | .hostLed b => Sys2Proof.Machine.execHostLed b s
  | .settleDone => Sys2Proof.Machine.execSettleDone s
  | .idleTimeout => Sys2Proof.Machine.execIdleTimeout s
  | .setupDone => Sys2Proof.Machine.execSetupDone s
  | .ackTimeout => Sys2Proof.Machine.execAckTimeout s
  | .batTimeout => Sys2Proof.Machine.execBatTimeout s
  | .pop => Sys2Proof.Machine.execPop s
  | .send b => Sys2Proof.Machine.execSend b s
  | .ackPoll => Sys2Proof.Machine.execAckPoll s
  | .resendService => Sys2Proof.Machine.execResendService s
  | .decode b => Sys2Proof.Machine.execDecode b s
  | .cmdEnter => Sys2Proof.Machine.execCmdEnter s
  | .cmdLeave => Sys2Proof.Machine.execCmdLeave s
  | .modsClear => Sys2Proof.Machine.execModsClear s
  | .recHotkey => Sys2Proof.Machine.execRecHotkey s
  | .playHotkey => Sys2Proof.Machine.execPlayHotkey s
  | .otherPress => Sys2Proof.Machine.execOtherPress s
  | .report len rbus => Sys2Proof.Machine.execReport len rbus s
  | .service => Sys2Proof.Machine.execService s
  | .ledApply => Sys2Proof.Machine.execLedApply s
  | .batPoll => Sys2Proof.Machine.execBatPoll s
  | .reset => Sys2Proof.Machine.execReset s
  | .parity b => Sys2Proof.Machine.execParity b s
  | .reserved1A1B x => Sys2Proof.Machine.execReserved1A1B x s
  | .reserved1C1F x => Sys2Proof.Machine.execReserved1C1F x s
  | .frameRx d p => Sys2Proof.Machine.execFrameRx d p s
  | .frameTx d p a => Sys2Proof.Machine.execFrameTx d p a s
  | .cmdReset => Sys2Proof.Machine.execCmdReset s
  | .cmdScanset2 => Sys2Proof.Machine.execCmdScanset2 s
  | .cmdSetLeds v => Sys2Proof.Machine.execCmdSetLeds v s
  | .cmdResend => Sys2Proof.Machine.execCmdResend s
  | .respAck => Sys2Proof.Machine.execRespAck s
  | .respBatOk => Sys2Proof.Machine.execRespBatOk s
  | .respZero => Sys2Proof.Machine.execRespZero s
  | .scanZero => Sys2Proof.Machine.execScanZero s
  | .scanBreakF0 => Sys2Proof.Machine.execScanBreakF0 s
  | .scanExtE0 => Sys2Proof.Machine.execScanExtE0 s
  | .scanPauseE1 => Sys2Proof.Machine.execScanPauseE1 s
  | .scanExt2Prefix x => Sys2Proof.Machine.execScanExt2Prefix x s
  | .scanExt2Byte14 => Sys2Proof.Machine.execScanExt2Byte14 s
  | .scanExt2Byte77 => Sys2Proof.Machine.execScanExt2Byte77 s
  | .scanExt2Other b => Sys2Proof.Machine.execScanExt2Other b s
  | .scanExtDiscard => Sys2Proof.Machine.execScanExtDiscard s
  | .scanExtDiscard59 => Sys2Proof.Machine.execScanExtDiscard59 s
  | .scanExtMod b => Sys2Proof.Machine.execScanExtMod b s
  | .scanExtPlain b => Sys2Proof.Machine.execScanExtPlain b s
  | .scanKeyMod b => Sys2Proof.Machine.execScanKeyMod b s
  | .scanKeyPlain b => Sys2Proof.Machine.execScanKeyPlain b s
  | .scanCommand b => Sys2Proof.Machine.execScanCommand b s

end Sys2Proof.Machine
end

