-- ==== Sys2Proof/Machine/Environment.lean ====
section
/-! DEFINITION. The environment of 47_environment: pressed-key set, report build, live emission, handling of a decoded triple
and the safety timeout. It runs inside the main context, between the block's operations; where it issues one, `mainAt` says
which is next (assumption log 15). Every definition takes the OPEN parameters (00_scope R7) as an argument. -/

namespace Sys2Proof.Machine

/-- TRANSLATE(c), none for UNSUPPORTED (47 R168). -/
def envUsage (p : EnvParams) (c : Code) : Option Byte :=
  if p.translate c = p.unsupported then none else some (p.translate c)

/-- The four hotkeys (00 R7). -/
def isHotkey (p : EnvParams) (c : Code) : Bool := p.hotkeys.contains c

/-- The lowest-numbered slot of E_KEYS holding c, 6 when there is none. -/
def slotOf (c : Code) (s : State) : Nat := s.eKeys.toList.findIdx (· == c)

/-- `E_KEYS[i] <- c`. -/
def keySet (i : Nat) (c : Code) (s : State) : State := { s with eKeys := s.eKeys.setIfInBounds i c }

/-- Arm the safety deadline: `E_DEADLINE <- now + SAFETY_MS; E_ARMED <- 1` (47 R166). -/
def armDeadline (s : State) : State :=
  { s with eDeadline := s.tMs + BitVec.ofNat 32 Config.safetyMs, eArmed := true }

/-- The point inside the label is p. -/
def goAt (m : MainPoint) (s : State) : State := { s with mainAt := m }

/-- The usages of the tracked codes, in slot order (47 R168): empty slots, hotkeys and unsupported codes leave no gap. -/
def usagesOf (p : EnvParams) (keys : List Code) : List Byte :=
  keys.filterMap fun c => if c = 0#32 ∨ isHotkey p c then none else envUsage p c

/-- The E_UNSUPPORTED events of a report build, in slot order (47 R168, 60 R176). -/
def unsupportedOf (p : EnvParams) (keys : List Code) : List Output :=
  keys.filterMap fun c =>
    if c = 0#32 ∨ isHotkey p c ∨ (envUsage p c).isSome then none else some (.error (.unsupported c))

/-- The report build(mods) makes (47 R168). -/
def buildReport (p : EnvParams) (mods : Byte) (s : State) : Bytes8 :=
  bytes8 (mods :: 0x00 :: usagesOf p s.eKeys.toList)

/-- build's E_UNSUPPORTED events (47 R168). -/
def raiseUnsupported (p : EnvParams) (s : State) : State :=
  { s with history := s.history ++ unsupportedOf p s.eKeys.toList }

/-- The label's handling is over; after the all-clear of L_SAFETY the deadline is disarmed (47 R165, R170). -/
def handled (s : State) : State :=
  if s.mainPc = .lSafety then { s with eArmed := false, mainAt := .done } else goAt .done s

/-- env_emit(build(mods)) (47 R169): nothing while Replaying; while Recording the report is also to be given to REPORT. -/
def envEmit (p : EnvParams) (mods : Byte) (s : State) : State :=
  match s.mMode with
  | .replaying => handled (raiseUnsupported p s)
  | .recording =>
    goAt (.report (buildReport p mods s)) (emitUsb (bytesOf (buildReport p mods s)) (raiseUnsupported p s))
  | .stopped => handled (emitUsb (bytesOf (buildReport p mods s)) (raiseUnsupported p s))

/-- What follows the insertion of code c (47 R166 case 4): the hotkey operation, if c is one. -/
def afterInsert (p : EnvParams) (c : Code) (mods : Byte) : MainPoint :=
  if c = p.hkRecord then .issue .recHotkey mods true
  else if c = p.hkPlay then .issue .playHotkey mods true
  else if c = p.hkReset then .issue .reset mods true
  else .emit mods true

/-- A press event with code c (47 R166): abort, echo, full or insert, in this order. -/
def envPress (p : EnvParams) (c : Code) (mods : Byte) (s : State) : State :=
  if s.mMode = .replaying ∧ c ≠ p.hkPlay then goAt (.issue .otherPress mods false) s
  else if slotOf c s < Config.keysetCap then goAt (.emit mods false) (armDeadline (raise (.echo c) s))
  else if slotOf 0#32 s < Config.keysetCap then
    goAt (afterInsert p c mods) (armDeadline (keySet (slotOf 0#32 s) c s))
  else goAt (.emit mods false) (raise (.keysFull c) s)

/-- A release event with code c (47 R167). -/
def envRelease (c : Code) (mods : Byte) (s : State) : State :=
  if slotOf c s < Config.keysetCap then goAt (.emit mods true) (keySet (slotOf c s) 0 s)
  else goAt (.emit mods false) (raise (.releaseNotFound c) s)

/-- The first part of the handling of a decoded triple (47 R165). -/
def envHandle (p : EnvParams) (mods : Byte) (c : Code) (ev : KeyEvent) (s : State) : State :=
  match ev with
  | .press => envPress p c mods s
  | .release => envRelease c mods s
  | .none => goAt (.emit mods false) s

/-- The end of the handling of a decoded triple (47 R165): a report if a slot or the modifiers changed. -/
def envChanged (p : EnvParams) (mods : Byte) (changed : Bool) (s : State) : State :=
  if changed = true ∨ mods ≠ s.ePrevmods then envEmit p mods { s with ePrevmods := mods } else goAt .done s

/-- The safety check (47 R170) up to MODS_CLEAR. -/
def safetyCheck (s : State) : State :=
  if s.eArmed = false then goAt .done s
  else if s.eKeys.toList.all (· == 0#32) then goAt .done { s with eArmed := false }
  else if s.mMode = .replaying then
    goAt .done { s with eDeadline := s.tMs + BitVec.ofNat 32 Config.safetyMs }
  else if ge32 s.tMs s.eDeadline then goAt .clear { s with eKeys := Vector.replicate 6 0 }
  else goAt .done s

/-- The safety check after MODS_CLEAR (47 R170). -/
def safetyCleared (p : EnvParams) (s : State) : State := envEmit p 0x00 { s with ePrevmods := 0x00 }

/-- The environment's own next action at the main context's point; it is no operation of the block. -/
def envAct (p : EnvParams) (s : State) : State :=
  match s.mainAt with
  | .handle mods c ev => envHandle p mods c ev s
  | .emit mods changed => envChanged p mods changed s
  | .cleared => safetyCleared p s
  | .start => safetyCheck s
  | _ => s

end Sys2Proof.Machine
end

