-- ==== Sys2Proof/Machine/MainProc.lean ====
section
/-! DEFINITION. The main context's position and its next operation: the boot sequence (70_reset_and_hazards R190), the main
procedure (47_environment R163) and the sends they call (42_transceiver_tx R106). -/

namespace Sys2Proof.Machine

/-- What the main context does next. -/
inductive MainNext where
  /-- it issues this operation -/
  | op (i : Instr)
  /-- the environment acts, between operations -/
  | env
  /-- it waits for the timing oracle, inside `call SEND` -/
  | wait
deriving DecidableEq, Repr

/-- The order of the labels: the boot once, then the loop (70 R190, 47 R163). -/
def nextLabel : MainLabel → MainLabel
  | .bootEnter => .bootReset
  | .bootReset => .bootWaitBat
  | .bootWaitBat => .bootScanset
  | .bootScanset => .bootLeave
  | .bootLeave => .lResend
  | .lResend => .lPop
  | .lPop => .lService
  | .lService => .lLed
  | .lLed => .lSafety
  | .lSafety => .lResend

/-- The operation of a hotkey case (47 R166). -/
def hotInstr : HotOp → Instr
  | .otherPress => .otherPress
  | .recHotkey => .recHotkey
  | .playHotkey => .playHotkey
  | .reset => .reset

/-- The first line of each label (70 R190, 47 R163). -/
def firstLine : MainLabel → MainNext
  | .bootEnter => .op .cmdEnter
  | .bootReset => .op (.send Config.cmdReset)
  | .bootWaitBat => .op .batPoll
  | .bootScanset => .op (.send Config.cmdScanset)
  | .bootLeave => .op .cmdLeave
  | .lResend => .op .resendService
  | .lPop => .op .pop
  | .lService => .op .service
  | .lLed => .op .ledApply
  | .lSafety => .env

/-- The line at the main context's point, when no send is in progress or pending. -/
def lineAt (s : State) : MainNext :=
  match s.mainAt with
  | .start => firstLine s.mainPc
  | .decode b => .op (.decode b)
  | .issue h _ _ => .op (hotInstr h)
  | .report r => .op (.report (BitVec.ofNat 4 Config.reportLen) r)
  | .clear => .op .modsClear
  | .handle _ _ _ => .env
  | .emit _ _ => .env
  | .cleared => .env
  | .done => .env

/-- The main context's next action: while a send is in progress it polls or waits and issues nothing else (42 R106); then the
sends still pending; then the line at its point. -/
def mainNext (s : State) : MainNext :=
  match s.sState with
  | .waitAck => .op .ackPoll
  | .waitIdle => .wait
  | .inhibit => .wait
  | .idle =>
    match s.sends with
    | b :: _ => .op (.send b)
    | [] => lineAt s

/-- `if led != none: call SET_LEDS(led)` (47 R163). -/
def callSetLeds (r : Result) (s : State) : State :=
  match r with
  | .byte led => { s with mainAt := .done, sends := [Config.cmdLeds, led] }
  | _ => goAt .done s

/-- `if r = FE: call SEND(0xFE)` (47 R163). -/
def callResend (r : Result) (s : State) : State :=
  match r with
  | .byte b => { s with mainAt := .done, sends := [b] }
  | _ => goAt .done s

/-- `if b != 0x00#8: DECODE b` (47 R163). -/
def afterPop (r : Result) (s : State) : State :=
  match r with
  | .byte b => if b = 0x00#8 then goAt .done s else goAt (.decode b) s
  | _ => goAt .done s

/-- After DECODE its triple is handled (47 R163). -/
def afterDecode (r : Result) (s : State) : State :=
  match r with
  | .decoded mods c ev => goAt (.handle mods c ev) s
  | _ => goAt .done s

/-- After the first line of label l has run and left state t. BAT_POLL moves MAIN_PC itself (42 R121). -/
def afterFirstLine (l : MainLabel) (t : State) : State :=
  match l with
  | .bootEnter => goAt .done t
  | .bootReset => goAt .done t
  | .bootWaitBat => t
  | .bootScanset => { t with mainAt := .done, sends := [Config.scanset2] }
  | .bootLeave => goAt .done t
  | .lResend => callResend t.result t
  | .lPop => afterPop t.result t
  | .lService => callSetLeds t.result t
  | .lLed => callSetLeds t.result t
  | .lSafety => t

/-- After the line at the point of s has run and left state t. RESET ends the handling (47 R166). -/
def afterLine (s t : State) : State :=
  match s.mainAt with
  | .start => afterFirstLine s.mainPc t
  | .decode _ => afterDecode t.result t
  | .issue h mods changed => if h = .reset then t else goAt (.emit mods changed) t
  | .report _ => handled t
  | .clear => goAt .cleared t
  | _ => t

/-- The main context's position after an operation it issued in s has left state t. -/
def mainAfter (s t : State) : State :=
  match s.sState with
  | .idle =>
    match s.sends with
    | _ :: rest => { t with sends := rest }
    | [] => afterLine s t
  | _ => t

/-- MAIN_PC moves on when the label's lines are done and every send it called has returned (10 R53). -/
def settle (s : State) : State :=
  if s.mainAt = .done ∧ s.sState = .idle ∧ s.sends = [] then goto (nextLabel s.mainPc) s else s

end Sys2Proof.Machine
end

