-- ==== Sys2Proof/Machine/Run.lean ====
section
/-! DEFINITION. One step of the interleaving (20_memory R69): fetch the next turn, decode what it offers, run it, and move the
main context's position. Step.lean only calls it. -/

namespace Sys2Proof.Machine

/-- MAIN_PC's move after operation i took s to t: the main context moves on if i is the operation it was about to issue
(assumption log 13). -/
def advance (i : Instr) (s t : State) : State := settle (if mainNext s = .op i then mainAfter s t else t)

/-- Run one operation: its meaning, then the move of MAIN_PC. -/
def runOp (i : Instr) (s : State) : Outcome := andThen (exec i s) (fun t => .next (advance i s t))

/-- The main context's turn. A wait for the oracle is a pass of a busy loop that changes nothing (42 R106). -/
def mainTurn (s : State) : Outcome :=
  match mainNext s with
  | .op i => runOp i s
  | .env => .next (settle (envAct Config.env s))
  | .wait => .next s

/-- The decoder applied to an offer, with the selector the state holds. -/
def fetch (o : Offer) (s : State) : Option Instr := decode s.kMode s.kP2 o

/-- An offered operation (30 R78: an invalid word is refused by name). -/
def offerTurn (o : Offer) (s : State) : Outcome :=
  match fetch o s with
  | some i => runOp i s
  | none => .refused .invalidWord

/-- One turn: the next one of `input`, and with none left the main context's. -/
def takeTurn (s : State) : Outcome :=
  match s.input with
  | [] => mainTurn s
  | .main :: rest => mainTurn { s with input := rest }
  | .offer o :: rest => offerTurn o { s with input := rest }

/-- The state in which the next step fetches a bare word of the opcode table: the word is the next offer, and for a SCAN_BYTE
row (K_MODE, K_P2) are its selector, without which the fetch reads another row (assumption log 2). -/
def placeWord (s : State) (nbits w : Nat) : State :=
  match (tableSlot nbits w).1 with
  | .scanByte =>
    { s with
      input := .offer (tableOffer nbits w) :: s.input,
      kMode := (tableSlot nbits w).2.1,
      kP2 := (tableSlot nbits w).2.2 }
  | _ => { s with input := .offer (tableOffer nbits w) :: s.input }

end Sys2Proof.Machine
end

