-- ==== Sys2Proof/Machine/Script.lean ====
section
/-! DEFINITION. Scripts (30_encoding R86) as lists of operations, and the pseudo-operations of R87 with their expansions. -/

namespace Sys2Proof.Machine

/-- Run a script, one operation a line, stopping at the first stop (30 R86). -/
def runScript : List Instr → State → Outcome
  | [], s => .next s
  | i :: is, s => andThen (exec i s) (runScript is)

/-- The edges of a list of levels. -/
def edges (levels : List Bool) : List Instr := levels.map Instr.edge

/-- `frame b` (30 R87). -/
def scriptFrame (b : Byte) : List Instr := edges (frameLevels false b (parity b) true)

/-- `frame b perr` (30 R87). -/
def scriptFramePerr (b : Byte) : List Instr := edges (frameLevels false b (!parity b) true)

/-- `frame b nostart` (30 R87): the remaining ten edges are not sent. -/
def scriptFrameNostart : List Instr := edges [true]

/-- `frame b nostop` (30 R87). -/
def scriptFrameNostop (b : Byte) : List Instr := edges (frameLevels false b (parity b) false)

/-- `txclk` (30 R87). -/
def scriptTxclk : List Instr := edges (txLevels false)

/-- `tick n` (30 R87). -/
def scriptTicks (n : Nat) : List Instr := List.replicate n .tick

/-- `sendok b` (30 R87). -/
def scriptSendok (b : Byte) : List Instr :=
  [.send b, .settleDone, .setupDone] ++ scriptTxclk ++ scriptFrame Config.ack ++ [.ackPoll]

/-- `set_leds v` with both sends acknowledged (30 R87, 42 R118). -/
def scriptSetLedsOk (v : Byte) : List Instr := scriptSendok Config.cmdLeds ++ scriptSendok v

/-- `set_scanset2` with both sends acknowledged (30 R87, 42 R119). -/
def scriptScanset2Ok : List Instr := scriptSendok Config.cmdScanset ++ scriptSendok Config.scanset2

end Sys2Proof.Machine
end

