-- ==== Sys2Proof/Machine/View.lean ====
section
/-! DEFINITION. The register view of 10_state R18: each element under its REG number, with the enumerations' numeric values
(decision D2). Every element is readable by observation; reading has no side effect. -/

namespace Sys2Proof.Machine

/-- What a register number shows. -/
inductive RegValue where
  /-- an element of `width` bits with this value -/
  | bits (width : Nat) (value : Nat)
  /-- MAIN_PC -/
  | label (l : MainLabel)
  /-- STEP[j] -/
  | record (m : MacroStep)
deriving DecidableEq, Repr

/-- X_MODE's value (10 R19). -/
def XMode.num : XMode → Nat
  | .rx => 0
  | .tx => 1

/-- X_ACKST's value (10 R26). -/
def AckState.num : AckState → Nat
  | .none => 0
  | .waiting => 1
  | .acked => 2
  | .nacked => 3

/-- S_STATE's value (10 R34). -/
def SendState.num : SendState → Nat
  | .idle => 0
  | .waitIdle => 1
  | .inhibit => 2
  | .waitAck => 3

/-- S_RESULT's value (10 R37). -/
def SendResult.num : SendResult → Nat
  | .none => 0
  | .ok => 1
  | .idleTimeout => 2
  | .failed => 3

/-- K_MODE's value (10 R38). -/
def kModeNum : KMode → Nat
  | .key => 0
  | .extendedKey => 1
  | .extendedKey2 => 2
  | .command => 3

/-- M_MODE's value (10 R42). -/
def MacroMode.num : MacroMode → Nat
  | .stopped => 0
  | .replaying => 1
  | .recording => 2

/-- A bit vector as a register value. -/
def viewBits {w : Nat} (v : BitVec w) : RegValue := .bits w v.toNat

/-- A one-bit element as a register value. -/
def viewFlag (b : Bool) : RegValue := .bits 1 b.toNat

/-- The single elements, REG below 0x100 (10 R18). -/
def viewElement (s : State) (reg : Nat) : Option RegValue :=
  match reg with
  | 0x00 => some (.bits 1 s.xMode.num)
  | 0x01 => some (viewBits s.xBitpos)
  | 0x02 => some (viewBits s.xRxshift)
  | 0x03 => some (viewFlag s.xRxpar)
  | 0x04 => some (viewBits s.xTxbyte)
  | 0x05 => some (viewFlag s.xTxpar)
  | 0x06 => some (viewFlag s.xRecover)
  | 0x07 => some (.bits 2 s.xAckst.num)
  | 0x08 => some (viewFlag s.xResend)
  | 0x09 => some (viewBits s.xFerr)
  | 0x0A => some (viewBits s.xPerr)
  | 0x0B => some (viewBits s.xOvf)
  | 0x0C => some (viewBits s.rbWr)
  | 0x0D => some (viewBits s.rbRd)
  | 0x0E => some (viewFlag s.clkOut)
  | 0x0F => some (viewFlag s.dataOut)
  | 0x10 => some (.bits 2 s.sState.num)
  | 0x11 => some (viewBits s.sByte)
  | 0x12 => some (viewBits s.sAttempt)
  | 0x13 => some (.bits 2 s.sResult.num)
  | 0x20 => some (.bits 2 (kModeNum s.kMode))
  | 0x21 => some (viewBits s.kMods)
  | 0x22 => some (viewFlag s.kRel)
  | 0x23 => some (viewFlag s.kP2)
  | 0x30 => some (.bits 2 s.mMode.num)
  | 0x31 => some (viewBits s.mCursor)
  | 0x32 => some (viewBits s.mFill)
  | 0x33 => some (viewBits s.mLast)
  | 0x34 => some (viewBits s.mNext)
  | 0x35 => some (viewBits s.mLedph)
  | 0x36 => some (viewBits s.mLedt)
  | 0x40 => some (viewBits s.tMs)
  | 0x41 => some (viewBits s.hLed)
  | 0x42 => some (viewFlag s.hDirty)
  | 0x50 => some (.label s.mainPc)
  | _ => none

/-- The register view (10 R18): REG 0x100+i is RB[i], REG 0x200+j is STEP[j]; any other number names no element. -/
def regView (s : State) (reg : Nat) : Option RegValue :=
  if reg < 0x100 then viewElement s reg
  else if reg < 0x100 + Config.rbCap then some (viewBits (Memory.read s.rb (reg - 0x100)))
  else if reg < 0x200 then none
  else (stepAt s (reg - 0x200)).map RegValue.record

end Sys2Proof.Machine
end

