-- ==== Sys2Proof/Safety.lean ====
section
/-! DEFINITION. What counts as a safe state and a safe run, in the terms the statements use: the invariants of 10_state R55 and
of the element rules, the ring buffer read as a queue, and the split of the operations by execution context (60_exceptions
R182). -/

namespace Sys2Proof.Machine

/-! ## The ring buffer as a queue -/

/-- The k-th slot after the read index. -/
def rbSlot (s : State) (k : Nat) : Byte := rbAt s (s.rbRd + BitVec.ofNat 5 k)

/-- The bytes in the buffer, oldest first: the slots from RB_RD on, up to the first empty one (10 R55). -/
def rbQueue (s : State) : List Byte := ((List.range Config.rbCap).map (rbSlot s)).takeWhile (· != 0#8)

/-! ## Invariants -/

/-- RB is canonical, and its used slots are exactly RB_RD, RB_RD+1, … up to but not including RB_WR, mod 32, all 32 when the
buffer is full (10 R55). -/
abbrev RbInv (s : State) : Prop :=
  Memory.wf s.rb = true ∧
  ∃ n, n < Config.rbCap + 1 ∧ s.rbWr = s.rbRd + BitVec.ofNat 5 n ∧
    ∀ k, k < Config.rbCap → (rbSlot s k ≠ 0#8 ↔ k < n)

/-- X_BITPOS ≤ 11, at most 10 in receive mode and at least 1 in transmit mode (10 R20). -/
abbrev BitposInv (s : State) : Prop :=
  s.xBitpos.toNat ≤ Config.txEdges ∧ (s.xMode = .rx → s.xBitpos.toNat ≤ 10) ∧ (s.xMode = .tx → 1 ≤ s.xBitpos.toNat)

/-- X_ACKST ≠ None exactly while S_STATE = WaitAck (10 R55), a transmission runs only while the ACK is awaited (42 R108), the
clock is held low exactly during the inhibit (10 R33), and a send in progress has a numbered attempt and no result yet (10 R36,
R37). -/
abbrev SendInv (s : State) : Prop :=
  (s.xAckst ≠ .none ↔ s.sState = .waitAck) ∧
  (s.xMode = .tx → s.xAckst = .waiting) ∧
  (s.clkOut = false ↔ s.sState = .inhibit) ∧
  (s.sState ≠ .idle → 1 ≤ s.sAttempt.toNat ∧ s.sResult = .none)

/-- M_FILL ≤ 40, M_CURSOR ≤ M_FILL, a recording has room and its cursor at the end (10 R43, R55), the chase phase is 0 to 2 (10
R47), and every valid step has a length of 1 to 8 (10 R49). -/
abbrev MacroInv (s : State) : Prop :=
  s.mFill.toNat ≤ Config.macroCap ∧
  s.mCursor.toNat ≤ s.mFill.toNat ∧
  (s.mMode = .recording → s.mFill.toNat < Config.macroCap ∧ s.mCursor = s.mFill) ∧
  s.mLedph.toNat < Config.ledPhases ∧
  ∀ j, j < s.mFill.toNat → (stepAt s j).any (fun m => validLen m.len) = true

/-- E_KEYS never holds two equal non-zero values (47 R164). -/
abbrev KeysInv (s : State) : Prop := (s.eKeys.toList.filter (· != 0#32)).Nodup

/-- The invariant of the machine. -/
structure Inv (s : State) : Prop where
  rb : RbInv s
  bitpos : BitposInv s
  send : SendInv s
  macros : MacroInv s
  keys : KeysInv s

/-! ## Conditions statements share -/

/-- The receiver is between frames and armed: the next edge is taken as a start bit (41 R93). -/
abbrev ReceiverIdle (s : State) : Prop :=
  s.clkOut = true ∧ s.xRecover = false ∧ s.xMode = .rx ∧ s.xBitpos = 0#4

/-- Only the main context's own work is left: no turn is offered, no send is in progress or pending. -/
abbrev MainFree (s : State) : Prop := s.input = [] ∧ s.sState = .idle ∧ s.sends = []

/-- The storage m is the storage old with slot a holding v and every other slot as before, read slot by slot, in canonical
form. -/
abbrev StoredAt (old m : Memory) (a : Nat) (v : Byte) : Prop :=
  Memory.wf m = true ∧ ∀ j, Memory.read m j = if j = a then v else Memory.read old j

/-- The delivery property of 41 R103 with its exceptions, as a function on what a client sees: what one framed byte with its
parity bit does to the queue of delivered bytes and to X_ACKST. -/
def deliver (qa : List Byte × AckState) (f : Byte × Bool) : List Byte × AckState :=
  if f.2 ≠ parity f.1 then (qa.1, if qa.2 = .waiting then .nacked else qa.2)
  else if f.1 = 0xFA#8 ∧ qa.2 = .waiting then (qa.1, .acked)
  else if f.1 = 0#8 ∨ Config.rbCap ≤ qa.1.length then qa
  else (qa.1 ++ [f.1], qa.2)

/-- The operations of the interrupt context (60 R182), with the rows that are runs of EDGE alone. -/
def isInterrupt : Instr → Bool
  | .edge _ => true
  | .recoveryDone => true
  | .tick => true
  | .hostLed _ => true
  | .frameRx _ _ => true
  | .respAck => true
  | .respZero => true
  | _ => false

/-- The two operations that reset the block (70 R189). -/
def isReset : Instr → Bool
  | .reset => true
  | .batTimeout => true
  | _ => false

/-- The reports in an output history, in order. -/
def reportsOf (h : List Output) : List (List Byte) :=
  h.filterMap fun o => match o with
    | .usb r => some r
    | .error _ => none

end Sys2Proof.Machine
end

