-- ==== Sys2Proof/Certificates/Slice0/Obligations.lean ====
section
/-! DEFINITION. The statements for the provers. A statement that gives `exec i s` as `.next { s with … }` says at once that the
instruction completes, what it writes, and that every field not named keeps its value. Storage of the ring buffer is spoken of
slot by slot, through `Memory.read` (`StoredAt`). -/

open Sys2Proof Sys2Proof.Machine

/-! ## Encoding -/

/-- Every well-formed instruction, offered where its selector stands, is decoded as itself (30_encoding R74 to R83). -/
def Obligations.DecodeOfEncode : Prop :=
  ∀ (i : Instr) (k : KMode) (p2 : Bool), i.wf = true → selects i k p2 = true → decode k p2 (encode i) = some i

/-- Whatever is decoded is well formed, stands in its selector, and is spelled by exactly the bits it was read from. -/
def Obligations.DecodedWordIsItsEncoding : Prop :=
  ∀ (o : Offer) (k : KMode) (p2 : Bool) (i : Instr), decode k p2 o = some i →
    i.wf = true ∧ selects i k p2 = true ∧ (encode i).fmt = o.fmt ∧ (encode i).word = o.word ∧
    ∀ len r, i = .report len r → r = o.rbus

/-- Words written out from the tables of 30_encoding and 95_test_vectors section 2.10, one or more of every format. -/
def Obligations.SpecWordsDecode : Prop :=
  (decodeOp16 0x0001 Bytes8.zero = some (.edge true) ∧ decodeOp16 0x1802 Bytes8.zero = some (.hostLed 0x02) ∧
   decodeOp16 0x50ED Bytes8.zero = some (.send 0xED) ∧ decodeOp16 0x681C Bytes8.zero = some (.decode 0x1C) ∧
   decodeOp16 0xA008 Bytes8.zero = some (.report 8 Bytes8.zero) ∧ decodeOp16 0xC8FA Bytes8.zero = some (.parity 0xFA) ∧
   decodeOp16 0x0002 Bytes8.zero = none ∧ decodeOp16 0xA009 Bytes8.zero = none ∧ decodeOp16 0x0100 Bytes8.zero = none) ∧
  (decodeFrame11 0x438 = some (.frameRx 0x1C false) ∧ decodeHostSeq11 0x7DA = some (.frameTx 0xED true false)) ∧
  (decodeCmd 0xED02 = some (.cmdSetLeds 0x02) ∧ decodeCmd 0xF002 = some .cmdScanset2 ∧ decodeResp 0x00FA = some .respAck) ∧
  (decodeScan .key false 0x14 = some (.scanKeyMod 0x14) ∧ decodeScan .extendedKey false 0x14 = some (.scanExtMod 0x14) ∧
   decodeScan .extendedKey2 false 0x14 = some .scanExt2Byte14 ∧ decodeScan .extendedKey2 true 0x14 = some (.scanExt2Other 0x14) ∧
   decodeScan .command false 0x14 = some (.scanCommand 0x14))

/-- 30_encoding R78, clause by clause: the words it lists, and only they, spell no operation, and a step that is offered one
refuses it by name; so does each of the two reserved rows. -/
def Obligations.InvalidOperationWords : Prop :=
  (∀ x s, exec (.reserved1A1B x) s = .refused .reservedOpsel) ∧
  (∀ x s, exec (.reserved1C1F x) s = .refused .reservedOpsel) ∧
  ∀ (w : BitVec 16) (r : Bytes8),
    let opsel := w.toNat / 2048
    let pay := w.toNat % 256
    let invalid := 0x1A ≤ opsel ∨ w.toNat / 256 % 8 ≠ 0 ∨ (opsel = 0 ∧ 2 ≤ pay) ∨
      (opsel = 0x14 ∧ (pay % 16 = 0 ∨ 8 < pay % 16 ∨ 16 ≤ pay)) ∨
      (opsel ∉ [0x00, 0x03, 0x0A, 0x0D, 0x14, 0x19] ∧ pay ≠ 0)
    (invalid → ∀ s rest, s.input = .offer ⟨.op16, w, r⟩ :: rest →
      step s = .refused (if 0x1A ≤ opsel then .reservedOpsel else .invalidWord)) ∧
    (¬ invalid → ∃ i, decodeOp16 w r = some i ∧ i.wf = true ∧
      (∀ x, i ≠ .reserved1A1B x) ∧ ∀ x, i ≠ .reserved1C1F x)

/-- An operation offered without its precondition has no step, and the fault names the agent that is stuck on it (00_scope R12,
the "pre" and "agent" columns of 30_encoding R77; that a stuck agent is a fault is the model's form, log 4). -/
def Obligations.NoStepWithoutPrecondition : Prop :=
  ∀ s : State,
    (s.clkOut = false → ∀ d, exec (.edge d) s = .fault (.stuck .device)) ∧
    (s.xRecover = false → exec .recoveryDone s = .fault (.stuck .oracle)) ∧
    (s.sState ≠ .waitIdle → exec .settleDone s = .fault (.stuck .oracle) ∧ exec .idleTimeout s = .fault (.stuck .oracle)) ∧
    (s.sState ≠ .inhibit → exec .setupDone s = .fault (.stuck .oracle)) ∧
    (s.sState ≠ .waitAck ∨ s.xAckst ≠ .waiting → exec .ackTimeout s = .fault (.stuck .oracle)) ∧
    (s.mainPc ≠ .bootWaitBat → exec .batTimeout s = .fault (.stuck .oracle)) ∧
    (s.sState ≠ .idle → exec .pop s = .fault (.stuck .main) ∧ (∀ b, exec (.send b) s = .fault (.stuck .main)) ∧
      exec .resendService s = .fault (.stuck .main) ∧ exec .service s = .fault (.stuck .main) ∧
      exec .ledApply s = .fault (.stuck .main)) ∧
    (s.sState ≠ .waitAck → exec .ackPoll s = .fault (.stuck .main)) ∧
    (s.kMode ≠ .command → exec .cmdLeave s = .fault (.stuck .main)) ∧
    (s.mainPc ≠ .bootWaitBat ∨ s.sState ≠ .idle → exec .batPoll s = .fault (.stuck .main))

/-- The rows that stand for whole frames, commands and byte classes have no step outside their conditions either (logs 3, 9, 10
and 11): a frame while the clock is held low, a host sequence that is not the one the block presents, a command while a send is in
progress, and a byte class in another mode or without its byte. -/
def Obligations.CompositeRowsNeedTheirConditions : Prop :=
  ∀ s : State,
    (s.clkOut = false → (∀ d p, exec (.frameRx d p) s = .fault (.stuck .device)) ∧
      exec .respAck s = .fault (.stuck .device) ∧ exec .respBatOk s = .fault (.stuck .device) ∧
      exec .respZero s = .fault (.stuck .device)) ∧
    (∀ d p a, s.sState ≠ .inhibit ∨ d ≠ s.sByte ∨ p ≠ parity s.sByte →
      exec (.frameTx d p a) s = .fault (.stuck .device)) ∧
    (s.sState ≠ .idle → exec .cmdReset s = .fault (.stuck .main) ∧ exec .cmdScanset2 s = .fault (.stuck .main) ∧
      (∀ v, exec (.cmdSetLeds v) s = .fault (.stuck .main)) ∧ exec .cmdResend s = .fault (.stuck .main)) ∧
    ∀ i, formatOf i = .scanByte → i.wf = false ∨ selects i s.kMode s.kP2 = false → exec i s = .fault (.stuck .main)

/-- What the operations do in states no run reaches, where 41_transceiver_rx R93 and 42_transceiver_tx R111, R112 have no arm and
20_memory R58 no array element (log 7), and with the operand 30_encoding R78 calls invalid (log 23). -/
def Obligations.UnreachableCasesStopOrChangeNothing : Prop :=
  ∀ (d : Bool) (s : State),
    (s.clkOut = true → s.xRecover = false → s.xMode = .rx → 11 ≤ s.xBitpos.toNat →
      exec (.edge d) s = .fault (.stuck .device)) ∧
    (s.clkOut = true → s.xRecover = false → s.xMode = .tx → s.xBitpos = 0#4 ∨ 12 ≤ s.xBitpos.toNat →
      exec (.edge d) s = .next s) ∧
    (s.sState = .waitAck → s.xAckst = .none → exec .ackPoll s = .fault (.stuck .main)) ∧
    (∀ len r, len = 0#4 ∨ 9 ≤ len.toNat → exec (.report len r) s = .refused .invalidWord) ∧
    (∀ len r, 1 ≤ len.toNat → len.toNat ≤ 8 → s.mMode = .recording → 40 ≤ s.mFill.toNat →
      exec (.report len r) s = .fault .outsideArray) ∧
    (s.sState = .idle → s.mMode = .recording → s.mLedph = 3#2 → s.mLedt.toNat ≤ s.tMs.toNat →
      exec .service s = .fault .outsideArray)

/-! ## The step -/

/-- A step runs the instruction its offer decodes to, then moves the main context's position: on, if that instruction is the one
the main context was about to issue, and to the next label if that ended its label (logs 1 and 13). -/
def Obligations.StepRunsDecodedInstruction : Prop :=
  ∀ (s : State) (o : Offer) (rest : List Turn) (i : Instr),
    s.input = .offer o :: rest → decode s.kMode s.kP2 o = some i →
    let u := { s with input := rest }
    step s = andThen (exec i u) fun t => .next (settle (if mainNext u = .op i then mainAfter u t else t))

/-- With nothing offered, a step is the main context's own: its next operation, an action of the environment, or a wait for the
oracle that changes nothing (logs 1, 13 and 14). -/
def Obligations.StepIsMainContextsTurn : Prop :=
  ∀ s : State, s.input = [] →
    (∀ i, mainNext s = .op i → step s = andThen (exec i s) fun t => .next (settle (mainAfter s t))) ∧
    (mainNext s = .env → step s = .next (settle (envAct Config.env s))) ∧
    (mainNext s = .wait → step s = .next s)

/-! ## Codec -/

/-- PARITY returns the bit that makes the number of ones in the nine bits odd, and changes no other state (40_codec R88);
FRAMECHECK's three verdicts are framing before parity, and parity as an odd count (R89, R90). -/
def Obligations.ParityMakesNineBitsOdd : Prop :=
  (∀ (b : Byte) (s : State), ∃ p : Bool, exec (.parity b) s = .next { s with result := .bit p } ∧
    (((List.range 8).map fun k => (b.getLsbD k).toNat).sum + p.toNat) % 2 = 1) ∧
  ∀ (st : Bool) (d : Byte) (p t : Bool),
    (frameCheck st d p t = .framingError ↔ st = true ∨ t = false) ∧
    (frameCheck st d p t = .ok ↔ st = false ∧ t = true ∧ (popcount8 d + p.toNat) % 2 = 1) ∧
    (frameCheck st d p t = .parityError ↔ st = false ∧ t = true ∧ (popcount8 d + p.toNat) % 2 = 0)

/-- The receive path, which checks position by position, takes FRAMECHECK's verdict on every complete frame (40_codec R91). -/
def Obligations.ReceivePathTakesFrameCheckVerdict : Prop :=
  ∀ (st : Bool) (d : Byte) (p t : Bool) (s : State), ReceiverIdle s →
    ∃ u, runScript (edges (frameLevels st d p t)) s = .next u ∧
      u.xFerr = s.xFerr + (if frameCheck st d p t = .framingError then 1 else 0) ∧
      u.xPerr = s.xPerr + (if frameCheck st d p t = .parityError then 1 else 0) ∧
      (u.xRecover = true ↔ frameCheck st d p t = .framingError) ∧ u.xBitpos = 0#4

/-! ## Receive path -/

/-- One edge at each receive position but a good stop bit (41_transceiver_rx R95 to R99). -/
def Obligations.EdgeShiftsInOneBit : Prop :=
  ∀ (d : Bool) (s : State), s.clkOut = true → s.xRecover = false → s.xMode = .rx →
    let framing : State :=
      { s with xFerr := s.xFerr + 1, xBitpos := 0, xRecover := true, history := s.history ++ [.error (.framing (s.xFerr + 1))] }
    (s.xBitpos = 0#4 → exec (.edge d) s = .next (if d then framing else { s with xRxshift := 0, xBitpos := 1 })) ∧
    (1 ≤ s.xBitpos.toNat → s.xBitpos.toNat ≤ 8 →
      ∃ v : Byte, exec (.edge d) s = .next { s with xRxshift := v, xBitpos := s.xBitpos + 1 } ∧
        ∀ k, v.getLsbD k = if k + 1 = s.xBitpos.toNat then d else s.xRxshift.getLsbD k) ∧
    (s.xBitpos = 9#4 → exec (.edge d) s = .next { s with xRxpar := d, xBitpos := 10 }) ∧
    (s.xBitpos = 10#4 → d = false → exec (.edge d) s = .next framing)

/-- A good stop bit completes the frame: NACK, parity error, ACK, zero byte, push or overflow, in this order (41_transceiver_rx
R98, R101, R102). -/
def Obligations.StopBitCompletesFrame : Prop :=
  ∀ s : State, s.clkOut = true → s.xRecover = false → s.xMode = .rx → s.xBitpos = 10#4 → Memory.wf s.rb = true →
    let b := s.xRxshift
    let u := { s with xBitpos := 0 }
    ∃ m, StoredAt s.rb m s.rbWr.toNat b ∧ exec (.edge true) s = .next (
      if s.xRxpar ≠ parity b then
        if s.xAckst = .waiting then
          { u with xPerr := s.xPerr + 1, xAckst := .nacked, history := s.history ++ [.error (.nack b)] }
        else { u with xPerr := s.xPerr + 1, xResend := true, history := s.history ++ [.error (.parity b)] }
      else if b = 0xFA#8 ∧ s.xAckst = .waiting then { u with xAckst := .acked }
      else if b = 0#8 then { u with history := s.history ++ [.error .zeroByte] }
      else if rbAt s s.rbWr = 0#8 then { u with rb := m, rbWr := s.rbWr + 1 }
      else { u with xOvf := s.xOvf + 1, history := s.history ++ [.error (.overflow b)] })

/-- A whole frame with legal start and stop bits, from the gap between frames (30_encoding R74, 41_transceiver_rx R101, R102). That
the row is its frame's eleven edges in one step, with nothing between them, is the model's choice (log 9). -/
def Obligations.WholeFrameReceived : Prop :=
  ∀ (d : Byte) (p : Bool) (s : State), ReceiverIdle s → Memory.wf s.rb = true →
    let u := { s with xRxshift := d, xRxpar := p }
    ∃ m, StoredAt s.rb m s.rbWr.toNat d ∧ exec (.frameRx d p) s = .next (
      if p ≠ parity d then
        if s.xAckst = .waiting then
          { u with xPerr := s.xPerr + 1, xAckst := .nacked, history := s.history ++ [.error (.nack d)] }
        else { u with xPerr := s.xPerr + 1, xResend := true, history := s.history ++ [.error (.parity d)] }
      else if d = 0xFA#8 ∧ s.xAckst = .waiting then { u with xAckst := .acked }
      else if d = 0#8 then { u with history := s.history ++ [.error .zeroByte] }
      else if rbAt s s.rbWr = 0#8 then { u with rb := m, rbWr := s.rbWr + 1 }
      else { u with xOvf := s.xOvf + 1, history := s.history ++ [.error (.overflow d)] })

/-- The device's 0xFA is the acknowledgment while X_ACKST = Waiting and an ordinary byte otherwise; 0x00 is never stored
(30_encoding R83, 41_transceiver_rx R101; that the rows are their frames' edges is log 9). -/
def Obligations.AckAndZeroResponses : Prop :=
  ∀ s : State, ReceiverIdle s → Memory.wf s.rb = true →
    (∃ m, StoredAt s.rb m s.rbWr.toNat 0xFA ∧ exec .respAck s = .next (
      if s.xAckst = .waiting then { s with xRxshift := 0xFA, xRxpar := true, xAckst := .acked }
      else if rbAt s s.rbWr = 0#8 then { s with xRxshift := 0xFA, xRxpar := true, rb := m, rbWr := s.rbWr + 1 }
      else { s with xRxshift := 0xFA, xRxpar := true, xOvf := s.xOvf + 1,
                    history := s.history ++ [.error (.overflow 0xFA)] })) ∧
    exec .respZero s = .next { s with xRxshift := 0, xRxpar := true, history := s.history ++ [.error .zeroByte] }

/-- 0xAA in BOOT_WAIT_BAT, behind bytes that are none: the polls discard those and take it as reset complete; anywhere else it is
the ordinary frame of its byte (30_encoding R83, 42_transceiver_tx R120, R121; that the row takes the polls with it is
log 12). -/
def Obligations.BatOkResponseEndsTheWait : Prop :=
  ∀ s : State, ReceiverIdle s →
    (s.mainPc = .bootWaitBat → s.sState = .idle → RbInv s → 0xAA#8 ∉ rbQueue s → (rbQueue s).length < Config.rbCap →
      ∃ t, exec .respBatOk s = .next t ∧
        t = { s with xRxshift := 0xAA, xRxpar := true, rb := t.rb, rbWr := s.rbWr + 1, rbRd := s.rbWr + 1,
                     mainPc := .bootScanset, mainAt := .start } ∧
        ∀ j, Memory.read t.rb j = 0#8) ∧
    (s.mainPc ≠ .bootWaitBat ∨ s.sState ≠ .idle → exec .respBatOk s = exec (.frameRx 0xAA true) s)

/-- RECOVERY_DONE re-arms the edge interrupt; until then every edge is lost (41_transceiver_rx R94, R100). -/
def Obligations.RecoveryLosesEdgesUntilDone : Prop :=
  ∀ s : State, s.xRecover = true →
    (s.clkOut = true → ∀ d, exec (.edge d) s = .next s) ∧
    (s.xMode = .rx → exec .recoveryDone s = .next { s with xRecover := false, xBitpos := 0 }) ∧
    (s.xMode = .tx → exec .recoveryDone s = .next { s with xRecover := false })

/-- The delivery property (41_transceiver_rx R103): however many legally framed bytes arrive, with whatever parity bits, the buffer
holds what it held and then each deliverable byte exactly once, in frame order. A frame is a FRAME_RX row, its eleven edges in one
step by the model's choice (log 9). -/
def Obligations.FramesAreDeliveredInOrder : Prop :=
  ∀ (frames : List (Byte × Bool)) (s : State), ReceiverIdle s → RbInv s →
    ∃ t, runScript (frames.map fun f => .frameRx f.1 f.2) s = .next t ∧ ReceiverIdle t ∧ RbInv t ∧
      (rbQueue t, t.xAckst) = frames.foldl deliver (rbQueue s, s.xAckst)

/-- POP reads the slot at RB_RD, empties it and advances, or changes nothing when it is empty (42_transceiver_tx R105); so it takes
the oldest byte of the queue and leaves the rest (20_memory R63, R64). -/
def Obligations.PopTakesTheOldestByte : Prop :=
  ∀ s : State, s.sState = .idle →
    (Memory.wf s.rb = true → ∃ m, StoredAt s.rb m s.rbRd.toNat 0 ∧ exec .pop s = .next (
      if rbAt s s.rbRd = 0#8 then { s with result := .byte 0 }
      else { s with rb := m, rbRd := s.rbRd + 1, result := .byte (rbAt s s.rbRd) })) ∧
    (RbInv s → ∃ t, exec .pop s = .next t ∧ RbInv t ∧ t.result = .byte ((rbQueue s).headD 0) ∧
      rbQueue t = (rbQueue s).tail)

/-! ## Send procedure -/

/-- Each command row sends its first byte; the second byte of a two-byte command stays to be sent, and is sent next whatever the
first send's result (30_encoding R82, 42_transceiver_tx R117 to R120; that a row is the beginning of its exchange, and where
MAIN_PC stands after it, is log 11). -/
def Obligations.CommandsSendTheirBytes : Prop :=
  ∀ (v : Byte) (s : State), s.sState = .idle →
    exec .cmdReset s = .next { s with
      sByte := 0xFF, sAttempt := 1, sResult := .none, sState := .waitIdle,
      mainAt := if s.mainPc = .bootReset ∧ s.mainAt = .start then .done else s.mainAt } ∧
    exec .cmdScanset2 s = .next { s with
      sByte := 0xF0, sAttempt := 1, sResult := .none, sState := .waitIdle, sends := 0x02 :: s.sends,
      mainAt := if s.mainPc = .bootScanset ∧ s.mainAt = .start then .done else s.mainAt } ∧
    exec (.cmdSetLeds v) s = .next { s with sByte := 0xED, sAttempt := 1, sResult := .none, sState := .waitIdle,
                                            sends := v :: s.sends } ∧
    exec .cmdResend s = .next { s with sByte := 0xFE, sAttempt := 1, sResult := .none, sState := .waitIdle,
                                       xResend := false } ∧
    ∀ rest, s.input = [] → s.sends = v :: rest →
      step s = .next { s with sByte := v, sAttempt := 1, sResult := .none, sState := .waitIdle, sends := rest }

/-- SEND starts attempt one and waits for the line (42_transceiver_tx R107); the wait ends one of two ways: SETTLE_DONE inhibits the
bus and abandons a partial receive frame (R108), IDLE_TIMEOUT ends the send, on any attempt (R109). -/
def Obligations.SendStartsAndAwaitsTheLine : Prop :=
  ∀ s : State,
    (s.sState = .idle → ∀ b, exec (.send b) s =
      .next { s with sByte := b, sAttempt := 1, sResult := .none, sState := .waitIdle }) ∧
    (s.sState = .waitIdle →
      exec .settleDone s = .next { s with clkOut := false, xBitpos := 0, xRxshift := 0, sState := .inhibit } ∧
      exec .idleTimeout s = .next { s with sState := .idle, sResult := .idleTimeout,
                                           history := s.history ++ [.error (.idleTimeout s.sByte)] })

/-- SETUP_DONE presents the start bit, begins the send context and releases the clock, in one step (42_transceiver_tx R110). -/
def Obligations.SetupBeginsTransmission : Prop :=
  ∀ s : State, s.sState = .inhibit →
    exec .setupDone s = .next { s with
      dataOut := false, xTxbyte := s.sByte, xTxpar := parity s.sByte, xMode := .tx, xBitpos := 1, xAckst := .waiting,
      clkOut := true, sState := .waitAck }

/-- One transmit edge at each position, the sampled level ignored (42_transceiver_tx R111). -/
def Obligations.TransmitEdgePresentsOneBit : Prop :=
  ∀ (d : Bool) (s : State), s.clkOut = true → s.xRecover = false → s.xMode = .tx →
    (1 ≤ s.xBitpos.toNat → s.xBitpos.toNat ≤ 8 →
      exec (.edge d) s = .next { s with dataOut := s.xTxbyte.getLsbD (s.xBitpos.toNat - 1), xBitpos := s.xBitpos + 1 }) ∧
    (s.xBitpos = 9#4 → exec (.edge d) s = .next { s with dataOut := s.xTxpar, xBitpos := 10 }) ∧
    (s.xBitpos = 10#4 → exec (.edge d) s = .next { s with dataOut := true, xBitpos := 11 }) ∧
    (s.xBitpos = 11#4 → exec (.edge d) s = .next { s with xMode := .rx, xBitpos := 0 })

/-- The host-to-device sequence (30_encoding R75): after SETUP_DONE the line carries the start bit, and after edge k of eleven the
eight data bits least significant first, odd parity, and twice the released level. -/
def Obligations.TransmittedLevels : Prop :=
  ∀ (levels : List Bool) (s : State), s.sState = .inhibit → s.xRecover = false → levels.length ≤ 11 →
    ∃ t, runScript (.setupDone :: edges levels) s = .next t ∧
      t.dataOut = (false :: ((List.range 8).map s.sByte.getLsbD ++ [parity s.sByte, true, true])).getD levels.length true ∧
      (t.xMode = .rx ↔ levels.length = 11)

/-- A whole host-to-device sequence of the byte being sent (30_encoding R75, 42_transceiver_tx R110, R111; that the row takes
SETUP_DONE with it is log 10). During recovery its edges are lost, and the transmission stays at position 1. -/
def Obligations.WholeSequenceTransmitted : Prop :=
  ∀ (a : Bool) (s : State), s.sState = .inhibit →
    exec (.frameTx s.sByte (parity s.sByte) a) s = .next { s with
      xTxbyte := s.sByte, xTxpar := parity s.sByte, xAckst := .waiting, clkOut := true, sState := .waitAck,
      dataOut := !s.xRecover, xMode := if s.xRecover then .tx else .rx, xBitpos := if s.xRecover then 1 else 0 }

/-- ACK_POLL: wait, finish, or fail the attempt and try again up to three times (42_transceiver_tx R112, R114). -/
def Obligations.AckPollTakesTheOutcome : Prop :=
  ∀ s : State, s.sState = .waitAck →
    (s.xAckst = .waiting → exec .ackPoll s = .next s) ∧
    (s.xAckst = .acked → exec .ackPoll s = .next { s with xAckst := .none, sState := .idle, sResult := .ok }) ∧
    (s.xAckst = .nacked → exec .ackPoll s = .next (
      if s.sAttempt.toNat < 3 then { s with xAckst := .none, sAttempt := s.sAttempt + 1, sState := .waitIdle }
      else { s with xAckst := .none, sState := .idle, sResult := .failed,
                    history := s.history ++ [.error (.sendFailed s.sByte)] }))

/-- ACK_TIMEOUT abandons a transmission cut short and fails the attempt, its events in order (42_transceiver_tx R113, R114,
60_exceptions R176). -/
def Obligations.AckTimeoutFailsTheAttempt : Prop :=
  ∀ s : State, s.sState = .waitAck → s.xAckst = .waiting →
    let u := if s.xMode = .tx then { s with xMode := .rx, xBitpos := 0, dataOut := true } else s
    exec .ackTimeout s = .next (
      if s.sAttempt.toNat < 3 then
        { u with xAckst := .none, sAttempt := s.sAttempt + 1, sState := .waitIdle,
                 history := s.history ++ [.error (.ackTimeout s.sByte s.sAttempt)] }
      else
        { u with xAckst := .none, sState := .idle, sResult := .failed,
                 history := s.history ++ [.error (.ackTimeout s.sByte s.sAttempt), .error (.sendFailed s.sByte)] })

/-- `sendok b` (30_encoding R87): a send whose byte is clocked out whole and answered with 0xFA ends with Ok, wherever the
receiver stood in a frame before. -/
def Obligations.AcknowledgedSendReturnsOk : Prop :=
  ∀ (b : Byte) (s : State), s.sState = .idle → s.xRecover = false →
    runScript (scriptSendok b) s = .next { s with
      sByte := b, sAttempt := 1, sResult := .ok, sState := .idle, clkOut := true, dataOut := true, xMode := .rx,
      xBitpos := 0, xRxshift := 0xFA, xRxpar := true, xTxbyte := b, xTxpar := parity b, xAckst := .none }

/-- Three attempts and no more (42_transceiver_tx R114, R115): with no reply the send ends Failed, its four events in order. -/
def Obligations.SendGivesUpAfterThreeAttempts : Prop :=
  ∀ (b : Byte) (s : State), s.sState = .idle →
    ∃ t, runScript (.send b :: (List.replicate 3 [Instr.settleDone, .setupDone, .ackTimeout]).flatten) s = .next t ∧
      t.sState = .idle ∧ t.sResult = .failed ∧ t.sAttempt = 3#2 ∧ t.xAckst = .none ∧ t.xMode = .rx ∧ t.clkOut = true ∧
      t.history = s.history ++ [.error (.ackTimeout b 1), .error (.ackTimeout b 2), .error (.ackTimeout b 3),
        .error (.sendFailed b)]

/-- RESEND_SERVICE hands out a pending request once (42_transceiver_tx R117). -/
def Obligations.ResendServiceHandsOutTheRequest : Prop :=
  ∀ s : State, s.sState = .idle →
    exec .resendService s = .next (if s.xResend then { s with xResend := false, result := .byte 0xFE }
      else { s with result := .none })

/-- BAT_POLL discards the byte it pops, and 0xAA moves MAIN_PC on (42_transceiver_tx R121). -/
def Obligations.BatPollWaitsForBatOk : Prop :=
  ∀ s : State, s.mainPc = .bootWaitBat → s.sState = .idle → Memory.wf s.rb = true →
    ∃ m, StoredAt s.rb m s.rbRd.toNat 0 ∧ exec .batPoll s = .next (
      if rbAt s s.rbRd = 0#8 then s
      else if rbAt s s.rbRd = 0xAA#8 then { s with rb := m, rbRd := s.rbRd + 1, mainPc := .bootScanset, mainAt := .start }
      else { s with rb := m, rbRd := s.rbRd + 1 })

/-- No interrupt operation sends: none writes S_STATE, S_BYTE, S_ATTEMPT or CLK_OUT, and none starts a transmission; over every
instruction only SETUP_DONE and FRAME_TX set X_MODE to TX (42_transceiver_tx R116). That FRAME_TX takes SETUP_DONE with it is the
model's choice (log 10), and so is that FRAME_RX, RESP_ACK and RESP_ZERO are runs of EDGE, so interrupt operations (log 9). -/
def Obligations.InterruptsNeverSend : Prop :=
  ∀ (i : Instr) (s t : State), exec i s = .next t →
    (isInterrupt i = true →
      t.sState = s.sState ∧ t.sByte = s.sByte ∧ t.sAttempt = s.sAttempt ∧ t.clkOut = s.clkOut) ∧
    (t.xMode = .tx → s.xMode = .rx → i = .setupDone ∨ ∃ d p a, i = .frameTx d p a)

/-! ## Scan-code decoder -/

/-- DECODE of b is the row of the byte map that b selects in (K_MODE, K_P2), for every state and byte (30_encoding R79,
43_decoder R124). -/
def Obligations.DecodeSelectsOneRow : Prop :=
  ∀ (b : Byte) (s : State), (∃ t, exec (.decode b) s = .next t) ∧
    exec (.decode b) s = exec (scanRow s.kMode s.kP2 b) s ∧
    ∀ i, formatOf i = .scanByte → (wordOf i).toNat = b.toNat → i.wf = true → selects i s.kMode s.kP2 = true →
      i = scanRow s.kMode s.kP2 b

/-- The rows that give no event: those that change nothing, the prefix rows, and those that abandon a sequence, which leave K_MODE =
Key and K_REL = 0; K_MODS is kept by all (43_decoder R125 to R131, R133, R134). -/
def Obligations.SilentRows : Prop :=
  ∀ (b : Byte) (x : Bool) (s : State),
    let silent : Result := .decoded s.kMods 0 .none
    (s.kMode = .command → exec (.scanCommand b) s = .next { s with result := silent }) ∧
    (s.kMode ≠ .command → exec .scanZero s = .next { s with result := silent }) ∧
    (s.kMode ≠ .command → exec .scanBreakF0 s = .next { s with kRel := true, result := silent }) ∧
    (s.kMode = .key ∨ s.kMode = .extendedKey →
      exec .scanExtE0 s = .next { s with kMode := .extendedKey, result := silent } ∧
      exec .scanPauseE1 s = .next { s with kMode := .extendedKey2, kP2 := false, result := silent }) ∧
    (s.kMode = .extendedKey →
      exec .scanExtDiscard s = .next { s with kMode := .key, kRel := false, result := silent } ∧
      exec .scanExtDiscard59 s = .next { s with kMode := .key, kRel := false, result := silent }) ∧
    (s.kMode = .extendedKey2 →
      (s.kP2 = false → exec .scanExt2Byte14 s = .next { s with kP2 := true, result := silent }) ∧
      exec (.scanExt2Prefix x) s = .next { s with kMode := .key, kRel := false, kP2 := false, result := silent } ∧
      (b ∉ [0x00#8, 0xF0#8, 0xE0#8, 0xE1#8] → ¬(b = 0x14#8 ∧ s.kP2 = false) → ¬(b = 0x77#8 ∧ s.kP2 = true) →
        exec (.scanExt2Other b) s = .next { s with kMode := .key, kRel := false, kP2 := false, result := silent }))

/-- The rows that give an event: press, or release when K_REL = 1, with the code of 30_encoding R81 (43_decoder R132, R136,
R138). -/
def Obligations.EventRows : Prop :=
  ∀ (b : Byte) (s : State),
    let ev : KeyEvent := if s.kRel then .release else .press
    (s.kMode = .key → b ∉ [0x00#8, 0xF0#8, 0xE0#8, 0xE1#8, 0x12#8, 0x59#8, 0x14#8, 0x11#8] →
      exec (.scanKeyPlain b) s =
        .next { s with kRel := false, result := .decoded s.kMods (BitVec.ofNat 32 b.toNat) ev }) ∧
    (s.kMode = .extendedKey → b ∉ [0x00#8, 0xF0#8, 0xE0#8, 0xE1#8, 0x12#8, 0x59#8, 0x14#8, 0x11#8, 0x1F#8, 0x27#8] →
      exec (.scanExtPlain b) s =
        .next { s with kMode := .key, kRel := false,
                       result := .decoded s.kMods (BitVec.ofNat 32 (0xE000 + b.toNat)) ev }) ∧
    (s.kMode = .extendedKey2 → s.kP2 = true →
      exec .scanExt2Byte77 s =
        .next { s with kMode := .key, kRel := false, kP2 := false, result := .decoded s.kMods 0x00E11477 ev })

/-- The modifier rows: make sets the byte's bit of K_MODS, break clears it, every other bit stays, and no event comes
(43_decoder R135, R137). -/
def Obligations.ModifierRows : Prop :=
  ∀ (s : State) (k : Nat),
    (∀ b, s.kMode = .key → (b, k) ∈ [(0x14#8, 0), (0x12#8, 1), (0x11#8, 2), (0x59#8, 5)] →
      ∃ m : Byte, exec (.scanKeyMod b) s = .next { s with kMods := m, kRel := false, result := .decoded m 0 .none } ∧
        ∀ j, m.getLsbD j = if j = k then !s.kRel else s.kMods.getLsbD j) ∧
    (∀ b, s.kMode = .extendedKey → (b, k) ∈ [(0x14#8, 4), (0x11#8, 6), (0x1F#8, 3), (0x27#8, 7)] →
      ∃ m : Byte, exec (.scanExtMod b) s =
          .next { s with kMods := m, kMode := .key, kRel := false, result := .decoded m 0 .none } ∧
        ∀ j, m.getLsbD j = if j = k then !s.kRel else s.kMods.getLsbD j)

/-- The event property, over every byte and state (43_decoder R143): an event comes from the pause byte and from the plain codes
only, never from a prefix byte, and leaves no release pending and K_MODE = Key. -/
def Obligations.EventEndsTheSequence : Prop :=
  ∀ (b : Byte) (s t : State) (mods : Byte) (c : Code) (ev : KeyEvent),
    exec (.decode b) s = .next t → t.result = .decoded mods c ev →
    mods = t.kMods ∧
    (ev = .none → c = 0#32) ∧
    (ev ≠ .none → t.kRel = false ∧ t.kMode = .key ∧ b ∉ [0xF0#8, 0xE0#8, 0xE1#8] ∧ c.toNat < 0x1000000 ∧ c ≠ 0#32 ∧
      scanRow s.kMode s.kP2 b ∈ [.scanExt2Byte77, .scanExtPlain b, .scanKeyPlain b])

/-- The prefixed sequences of 30_encoding R80, from Key with no release pending. `ext`: 0xE0, any run of 0xE0 and 0xF0, and a final
byte give one event. `pause`: 0xE1, 0x14, 0x77 with any runs of 0xF0 before the last two give one. It is a release exactly when a
0xF0 came. -/
def Obligations.PrefixedSequencesDecode : Prop :=
  ∀ s : State, s.kMode = .key → s.kRel = false →
    (∀ (run : List Bool) (b : Byte),
      b ∉ [0x00#8, 0xF0#8, 0xE0#8, 0xE1#8, 0x12#8, 0x59#8, 0x14#8, 0x11#8, 0x1F#8, 0x27#8] →
      runScript (.decode 0xE0 :: (run.map fun r => .decode (if r then 0xF0 else 0xE0)) ++ [.decode b]) s =
        .next { s with
          result := .decoded s.kMods (BitVec.ofNat 32 (0xE000 + b.toNat)) (if true ∈ run then .release else .press) }) ∧
    ∀ m n : Nat,
      runScript ([.decode 0xE1] ++ List.replicate m (.decode 0xF0) ++ [.decode 0x14] ++ List.replicate n (.decode 0xF0) ++
          [.decode 0x77]) s =
        .next { s with kP2 := false, result := .decoded s.kMods 0x00E11477 (if 0 < m + n then .release else .press) }

/-- CMD_ENTER, CMD_LEAVE and MODS_CLEAR (43_decoder R139 to R141). -/
def Obligations.DecoderControlOperations : Prop :=
  ∀ s : State,
    exec .cmdEnter s = .next { s with kMode := .command } ∧
    (s.kMode = .command → exec .cmdLeave s = .next { s with kMode := .key, kRel := false, kP2 := false }) ∧
    exec .modsClear s = .next { s with kMods := 0, kRel := false }

/-! ## Macro engine -/

/-- The three hotkey operations in each mode (44_macro R146 to R149). -/
def Obligations.HotkeysMoveTheMode : Prop :=
  ∀ s : State,
    let stopped := { s with mMode := .stopped, hDirty := true }
    exec .recHotkey s = .next (match s.mMode with
      | .stopped => { s with mMode := .recording, mCursor := 0, mFill := 0, mLast := s.tMs, mLedph := 0, mLedt := s.tMs }
      | .recording => stopped
      | .replaying => stopped) ∧
    exec .playHotkey s = .next (match s.mMode with
      | .stopped => { s with mMode := .replaying, mCursor := 0, mNext := s.tMs, mLedph := 0, mLedt := s.tMs }
      | .replaying => stopped
      | .recording => s) ∧
    exec .otherPress s = .next (match s.mMode with
      | .replaying => stopped
      | _ => s)

/-- The transitions of the mode, over every instruction: those of 44_macro R145, the resets of R188, and no other; every move into
Stopped but a reset's sets H_DIRTY (R155). -/
def Obligations.NoOtherMacroTransition : Prop :=
  ∀ (i : Instr) (s t : State), exec i s = .next t → isReset i = false → t.mMode ≠ s.mMode →
    (s.mMode = .stopped ∧ i = .recHotkey ∧ t.mMode = .recording) ∨
    (s.mMode = .stopped ∧ i = .playHotkey ∧ t.mMode = .replaying) ∨
    (s.mMode = .recording ∧ t.mMode = .stopped ∧ t.hDirty = true ∧
      (i = .recHotkey ∨ ∃ len r, i = .report len r ∧ t.mFill = 40#6)) ∨
    (s.mMode = .replaying ∧ t.mMode = .stopped ∧ t.hDirty = true ∧
      (i = .playHotkey ∨ i = .otherPress ∨ i = .recHotkey ∨ (i = .service ∧ s.mFill.toNat ≤ s.mCursor.toNat)))

/-- REPORT (44_macro R150): ignored unless Recording, filtered when it is empty and the first, else appended with one third of the
time since the step before; the fortieth step stops the recording (R157). -/
def Obligations.ReportAppendsAStep : Prop :=
  ∀ (len : BitVec 4) (r : Bytes8) (s : State), 1 ≤ len.toNat → len.toNat ≤ 8 →
    let data := (bytesOf r).take len.toNat
    (s.mMode ≠ .recording → exec (.report len r) s = .next s) ∧
    (s.mMode = .recording → s.mFill = 0#6 → (∀ b ∈ data, b = 0#8) → exec (.report len r) s = .next s) ∧
    (s.mMode = .recording → s.mFill.toNat < 40 → ¬(s.mFill = 0#6 ∧ ∀ b ∈ data, b = 0#8) →
      ∃ t m, exec (.report len r) s = .next t ∧
        t = { s with
          steps := t.steps, mFill := s.mFill + 1, mCursor := s.mFill + 1, mLast := s.tMs,
          mMode := if s.mFill = 39#6 then .stopped else .recording,
          hDirty := if s.mFill = 39#6 then true else s.hDirty,
          history := if s.mFill = 39#6 then s.history ++ [.error .macroFull] else s.history } ∧
        stepAt t s.mFill.toNat = some m ∧ m.len = len ∧
        bytesOf m.data = data ++ List.replicate (8 - len.toNat) 0#8 ∧
        m.delay.toNat = (if s.mFill = 0#6 then 0 else (s.tMs - s.mLast).toNat / 3) ∧
        ∀ j, j ≠ s.mFill.toNat → stepAt t j = stepAt s j)

/-- SERVICE where no step is due: with the macro stopped it returns none; while Recording, and while Replaying before the next step's
time, it runs the LED chase of 44_macro R154 (44_macro R151). -/
def Obligations.ServiceAdvancesTheChase : Prop :=
  ∀ s : State, s.sState = .idle →
    (s.mMode = .stopped → exec .service s = .next { s with result := .none }) ∧
    (s.mLedph.toNat < 3 →
      s.mMode = .recording ∨
        (s.mMode = .replaying ∧ s.mCursor.toNat < s.mFill.toNat ∧ s.tMs.toNat < s.mNext.toNat) →
      exec .service s = .next (
        if s.mLedt.toNat ≤ s.tMs.toNat then
          { s with
            result := .byte ((if s.mMode = .replaying then [0x01#8, 0x02#8, 0x04#8] else [0x04#8, 0x02#8, 0x01#8]).getD
              s.mLedph.toNat 0),
            mLedph := BitVec.ofNat 2 ((s.mLedph.toNat + 1) % 3), mLedt := s.tMs + 166 }
        else { s with result := .none }))

/-- SERVICE sends one due step as it was recorded, schedules the next one from the schedule, not from now, and runs the LED chase on
the same pass (44_macro R151, R152, R154). -/
def Obligations.ServiceReplaysOneDueStep : Prop :=
  ∀ (s : State) (m : MacroStep), s.sState = .idle → s.mMode = .replaying → s.mLedph.toNat < 3 → s.mFill.toNat ≤ 40 →
    s.mCursor.toNat < s.mFill.toNat → s.mNext.toNat ≤ s.tMs.toNat → stepAt s s.mCursor.toNat = some m →
    ∃ t, exec .service s = .next t ∧
      (let u := { s with
        mCursor := s.mCursor + 1, mNext := t.mNext, history := s.history ++ [Output.usb ((bytesOf m.data).take m.len.toNat)] }
      t = if s.mLedt.toNat ≤ s.tMs.toNat then
          { u with result := .byte ([0x01#8, 0x02#8, 0x04#8].getD s.mLedph.toNat 0),
                   mLedph := BitVec.ofNat 2 ((s.mLedph.toNat + 1) % 3), mLedt := s.tMs + 166 }
        else { u with result := .none }) ∧
      (s.mCursor.toNat + 1 = s.mFill.toNat → t.mNext = s.mNext) ∧
      ∀ n, s.mCursor.toNat + 1 < s.mFill.toNat → stepAt s (s.mCursor.toNat + 1) = some n → t.mNext = s.mNext + n.delay

/-- SERVICE at the end of a replay: the synthetic release unless the final step was empty, Stopped, and no LED byte (44_macro
R151, R153). -/
def Obligations.ServiceEndsTheReplay : Prop :=
  ∀ s : State, s.sState = .idle → s.mMode = .replaying → s.mFill.toNat ≤ s.mCursor.toNat → s.mFill.toNat ≤ 40 →
    let lastEmpty := ∃ m, 0 < s.mFill.toNat ∧ stepAt s (s.mFill.toNat - 1) = some m ∧
      ∀ b ∈ (bytesOf m.data).take m.len.toNat, b = 0#8
    let stopped := { s with mMode := .stopped, hDirty := true, result := .none }
    (lastEmpty → exec .service s = .next stopped) ∧
    (¬ lastEmpty → exec .service s =
      .next { stopped with history := s.history ++ [.usb (List.replicate 8 0#8)] })

/-- The replay half of the round trip (44_macro R156): however SERVICEs and TICKs are mixed, while the replay lasts the reports
emitted are exactly the recorded steps the cursor has passed, in order, and the schedule has grown by exactly their
successors' delays. When a step is sent is another statement (ServiceReplaysOneDueStep). -/
def Obligations.ReplayEmitsTheRecordingInOrder : Prop :=
  ∀ (script : List Instr) (s t : State), (∀ i ∈ script, i = .service ∨ i = .tick) →
    Inv s → s.mMode = .replaying → runScript script s = .next t → t.mMode = .replaying →
    s.mCursor.toNat ≤ t.mCursor.toNat ∧ t.mCursor.toNat ≤ s.mFill.toNat ∧ t.mFill = s.mFill ∧ t.steps = s.steps ∧
    reportsOf t.history = reportsOf s.history ++
      ((s.steps.toList.take t.mCursor.toNat).drop s.mCursor.toNat).map (fun m => (bytesOf m.data).take m.len.toNat) ∧
    t.mNext = s.mNext + ((((s.steps.toList.take s.mFill.toNat).take (t.mCursor.toNat + 1)).drop (s.mCursor.toNat + 1)).map
      MacroStep.delay).sum

/-! ## Timebase and host LEDs -/

/-- TICK and HOST_LED (45_timebase_host R158, R160), and that they are the only writers of T_MS and H_LED but for a reset (10_state
R50, R51). -/
def Obligations.OnlyTickAdvancesTheClock : Prop :=
  (∀ (b : Byte) (s : State),
    exec .tick s = .next { s with tMs := BitVec.ofNat 32 (s.tMs.toNat + 1) } ∧
    exec (.hostLed b) s = .next { s with hLed := b, hDirty := true }) ∧
  ∀ (i : Instr) (s t : State), exec i s = .next t → isReset i = false →
    (i ≠ .tick → t.tMs = s.tMs) ∧ ((∀ b, i ≠ .hostLed b) → t.hLed = s.hLed)

/-- LED_APPLY hands out the host's LED byte once, its three bits moved to the keyboard's order, and only when no macro is active
(45_timebase_host R161, R162, 30_encoding R85). -/
def Obligations.LedApplyRemapsOnce : Prop :=
  ∀ s : State, s.sState = .idle →
    (s.hDirty = true → s.mMode = .stopped → ∃ v : Byte,
      exec .ledApply s = .next { s with hDirty := false, result := .byte v } ∧
      ∀ k, v.getLsbD k = if k = 0 then s.hLed.getLsbD 2 else if k = 1 then s.hLed.getLsbD 0
        else if k = 2 then s.hLed.getLsbD 1 else false) ∧
    (s.hDirty = false ∨ s.mMode ≠ .stopped → exec .ledApply s = .next { s with result := .none })

/-! ## Reset -/

/-- RESET, and BAT_TIMEOUT after its E_BAT_FAIL, put every element of 10_state R18 but STEP, and the environment's state, at its
reset value, abandon a send and its exchange, and keep the outputs already recorded (70_reset_and_hazards R188, 42_transceiver_tx
R122, 60_exceptions R175). MAIN_PC is its label, the point in it and the bytes still to be sent (10_state R53, log 13). -/
def Obligations.ResetRestoresEveryElement : Prop :=
  ∀ s : State,
    let restored (t : State) :=
      (∀ reg, reg < 0x200 → regView t reg = regView State.reset reg) ∧ t.mainAt = .start ∧ t.sends = [] ∧
      t.eKeys = Vector.replicate 6 0 ∧ t.ePrevmods = 0 ∧ t.eDeadline = 0 ∧ t.eArmed = false
    (∃ t, exec .reset s = .next t ∧ restored t ∧ t.history = s.history) ∧
    (s.mainPc = .bootWaitBat →
      ∃ t, exec .batTimeout s = .next t ∧ restored t ∧ t.history = s.history ++ [.error .batFail])

/-- The reset column of 10_state R18, number by number. -/
def Obligations.ResetRegisterView : Prop :=
  ([0x00, 0x03, 0x05, 0x06, 0x08, 0x22, 0x23, 0x42].all fun r => regView State.reset r == some (.bits 1 0)) = true ∧
  ([0x0E, 0x0F].all fun r => regView State.reset r == some (.bits 1 1)) = true ∧
  ([0x07, 0x10, 0x12, 0x13, 0x20, 0x30, 0x35].all fun r => regView State.reset r == some (.bits 2 0)) = true ∧
  regView State.reset 0x01 = some (.bits 4 0) ∧
  ([0x0C, 0x0D].all fun r => regView State.reset r == some (.bits 5 0)) = true ∧
  ([0x31, 0x32].all fun r => regView State.reset r == some (.bits 6 0)) = true ∧
  ([0x02, 0x04, 0x09, 0x0A, 0x0B, 0x11, 0x21, 0x41].all fun r => regView State.reset r == some (.bits 8 0)) = true ∧
  ([0x33, 0x34, 0x36, 0x40].all fun r => regView State.reset r == some (.bits 32 0)) = true ∧
  regView State.reset 0x50 = some (.label .bootEnter) ∧
  ((List.range 32).all fun i => regView State.reset (0x100 + i) == some (.bits 8 0)) = true

/-! ## Invariants and outputs -/

/-- The invariant holds right after power-up. -/
def Obligations.InvariantHoldsAtReset : Prop := Inv State.reset

/-- Every step keeps the invariant (10_state R20, R33, R36, R37, R43, R47, R49, R55, 47_environment R164): the ring buffer's used
slots are one run from RB_RD to RB_WR in canonical storage, X_BITPOS is legal, the send's registers agree, the macro store's
indices are in range, and E_KEYS has no duplicate. -/
def Obligations.StepKeepsTheInvariant : Prop :=
  ∀ s t : State, Inv s → step s = .next t → Inv t

/-- Error events transfer no control and outputs are never taken back (60_exceptions R174, 10_state R54): every instruction only
appends to the history. -/
def Obligations.HistoryOnlyGrows : Prop :=
  ∀ (i : Instr) (s t : State), exec i s = .next t → s.history <+: t.history

/-! ## Main procedure -/

/-- The boot sequence, label by label (70_reset_and_hazards R190). -/
def Obligations.BootRunsInOrder : Prop :=
  ∀ s : State, MainFree s → s.mainAt = .start →
    (s.mainPc = .bootEnter → step s = .next { s with kMode := .command, mainPc := .bootReset }) ∧
    (s.mainPc = .bootReset → step s = .next { s with
      sByte := 0xFF, sAttempt := 1, sResult := .none, sState := .waitIdle, mainAt := .done }) ∧
    (s.mainPc = .bootWaitBat → rbAt s s.rbRd = 0#8 → step s = .next s) ∧
    (s.mainPc = .bootWaitBat → rbAt s s.rbRd ≠ 0#8 → Memory.wf s.rb = true → ∃ m, StoredAt s.rb m s.rbRd.toNat 0 ∧
      step s = .next { s with
        rb := m, rbRd := s.rbRd + 1, mainPc := if rbAt s s.rbRd = 0xAA#8 then .bootScanset else .bootWaitBat }) ∧
    (s.mainPc = .bootScanset → step s = .next { s with
      sByte := 0xF0, sAttempt := 1, sResult := .none, sState := .waitIdle, mainAt := .done, sends := [0x02] }) ∧
    (s.mainPc = .bootLeave → s.kMode = .command → step s = .next { s with
      kMode := .key, kRel := false, kP2 := false, mainPc := .lResend })

/-- The main loop, line by line (47_environment R163; the position form is log 13, the turns inside L_POP log 15). Every line of the
five labels is here but the expiring deadline of L_SAFETY and the environment's own actions, which have statements of their own.
A send that returns, whatever its result, hands back to its caller: the next byte of the exchange if one is left, else the next
label (10_state R53, 42_transceiver_tx R106, R118, R119). -/
def Obligations.MainLoopRunsInOrder : Prop :=
  ∀ s : State,
    (s.input = [] → s.sState = .idle → s.sends = [] →
      (s.mainAt = .start →
        (s.mainPc = .lResend → step s = .next (
          if s.xResend then { s with xResend := false, result := .byte 0xFE, mainAt := .done, sends := [0xFE] }
          else { s with result := .none, mainPc := .lPop })) ∧
        (s.mainPc = .lPop → rbAt s s.rbRd = 0#8 → step s = .next { s with result := .byte 0, mainPc := .lService }) ∧
        (s.mainPc = .lPop → rbAt s s.rbRd ≠ 0#8 → Memory.wf s.rb = true → ∃ m, StoredAt s.rb m s.rbRd.toNat 0 ∧
          step s = .next { s with rb := m, rbRd := s.rbRd + 1, result := .byte (rbAt s s.rbRd),
                                  mainAt := .decode (rbAt s s.rbRd) }) ∧
        (s.mainPc = .lService → s.mMode = .stopped → step s = .next { s with result := .none, mainPc := .lLed }) ∧
        (s.mainPc = .lService → ∀ t, exec .service s = .next t →
          (t.result = .none → step s = .next { t with mainPc := .lLed }) ∧
          ∀ led, t.result = .byte led → step s = .next { t with mainAt := .done, sends := [0xED, led] }) ∧
        (s.mainPc = .lLed → s.hDirty = true → s.mMode = .stopped → step s = .next { s with
          hDirty := false, result := .byte (ledRemap s.hLed), mainAt := .done, sends := [0xED, ledRemap s.hLed] }) ∧
        (s.mainPc = .lLed → s.hDirty = false ∨ s.mMode ≠ .stopped →
          step s = .next { s with result := .none, mainPc := .lSafety }) ∧
        (s.mainPc = .lSafety → s.eArmed = false → step s = .next { s with mainPc := .lResend })) ∧
      (∀ b, s.mainAt = .decode b → ∃ t mods c ev, exec (.decode b) s = .next t ∧ t.result = .decoded mods c ev ∧
        step s = .next { t with mainAt := .handle mods c ev }) ∧
      (∀ h mods changed, s.mainAt = .issue h mods changed → ∃ t, exec (hotInstr h) s = .next t ∧
        step s = .next (if h = .reset then t else { t with mainAt := .emit mods changed })) ∧
      (∀ r, s.mainAt = .report r → s.mFill.toNat < 40 → ∃ t, exec (.report 8 r) s = .next t ∧
        step s = .next { t with
          eArmed := if s.mainPc = .lSafety then false else s.eArmed, mainPc := nextLabel s.mainPc, mainAt := .start })) ∧
    (s.mainAt = .done →
      let back (t : State) : State := if s.sends = [] then { t with mainPc := nextLabel s.mainPc, mainAt := .start } else t
      (s.input = [] → s.sState = .waitAck →
        (s.xAckst = .acked → step s = .next (back { s with xAckst := .none, sState := .idle, sResult := .ok })) ∧
        (s.xAckst = .nacked → s.sAttempt = 3#2 → step s = .next (back { s with
          xAckst := .none, sState := .idle, sResult := .failed, history := s.history ++ [.error (.sendFailed s.sByte)] }))) ∧
      (∀ r rest, s.input = .offer ⟨.op16, 0x2800, r⟩ :: rest → s.sState = .waitIdle →
        step s = .next (back { s with
          input := rest, sState := .idle, sResult := .idleTimeout,
          history := s.history ++ [.error (.idleTimeout s.sByte)] })) ∧
      (∀ r rest, s.input = .offer ⟨.op16, 0x3800, r⟩ :: rest → s.sState = .waitAck → s.xAckst = .waiting →
        s.sAttempt = 3#2 → s.xMode = .rx →
        step s = .next (back { s with
          input := rest, xAckst := .none, sState := .idle, sResult := .failed,
          history := s.history ++ [.error (.ackTimeout s.sByte 3), .error (.sendFailed s.sByte)] })))

/-- The main context never stops (00_scope R12): on its own turn it always has a step, in every state that meets the invariant and in
which BOOT_LEAVE finds the Command mode the boot set. While a send waits for the timing oracle that step changes nothing, the
model's reading of the wait (log 14). -/
def Obligations.MainContextNeverStuck : Prop :=
  ∀ s : State, Inv s → (s.mainPc = .bootLeave → s.kMode = .command) → s.input = [] → ∃ t, step s = .next t

/-! ## Environment -/

/-- A press is an abort, an echo, a full set or an insertion, in this order (47_environment R166); a release clears the slot that
holds its code, or is only logged (R167). For every choice of the OPEN parameters. -/
def Obligations.PressAndReleaseUpdateTheKeySet : Prop :=
  ∀ (p : EnvParams) (c : Code) (mods : Byte) (s : State), s.mainAt = .handle mods c .press → c ≠ 0#32 →
    let deadline := s.tMs + 60000
    (s.mMode = .replaying ∧ c ≠ p.hkPlay → envAct p s = { s with mainAt := .issue .otherPress mods false }) ∧
    (¬(s.mMode = .replaying ∧ c ≠ p.hkPlay) →
      (c ∈ s.eKeys.toList → envAct p s = { s with
        history := s.history ++ [.error (.echo c)], eDeadline := deadline, eArmed := true, mainAt := .emit mods false }) ∧
      (c ∉ s.eKeys.toList → 0#32 ∉ s.eKeys.toList → envAct p s = { s with
        history := s.history ++ [.error (.keysFull c)], mainAt := .emit mods false }) ∧
      (c ∉ s.eKeys.toList → 0#32 ∈ s.eKeys.toList → ∃ i : Fin 6, s.eKeys[i] = 0#32 ∧ (∀ j < i, s.eKeys[j] ≠ 0#32) ∧
        envAct p s = { s with
          eKeys := s.eKeys.set i c, eDeadline := deadline, eArmed := true,
          mainAt := if c = p.hkRecord then .issue .recHotkey mods true
            else if c = p.hkPlay then .issue .playHotkey mods true
            else if c = p.hkReset then .issue .reset mods true else .emit mods true })) ∧
    let r := { s with mainAt := .handle mods c .release }
    (c ∉ s.eKeys.toList → envAct p r = { s with
      history := s.history ++ [.error (.releaseNotFound c)], mainAt := .emit mods false }) ∧
    (c ∈ s.eKeys.toList → ∃ i : Fin 6, s.eKeys[i] = c ∧
      envAct p r = { s with eKeys := s.eKeys.set i 0, mainAt := .emit mods true })

/-- The end of a handling (47_environment R165, R168, R169): a change gives one report of the modifiers and the packed usages of the
held keys, to the host unless a replay owns the output, and to REPORT while Recording. -/
def Obligations.ChangeEmitsThePackedReport : Prop :=
  ∀ (p : EnvParams) (mods : Byte) (changed : Bool) (s : State), s.mainAt = .emit mods changed → s.mainPc ≠ .lSafety →
    let live := s.eKeys.toList.filter fun c => decide (c ≠ 0#32 ∧ c ∉ [p.hkRecord, p.hkPlay, p.hkReset, p.hkBlink])
    let usages := live.filterMap (envUsage p)
    let logged := (live.filter fun c => (envUsage p c).isNone).map fun c => Output.error (.unsupported c)
    let report := mods :: 0#8 :: (usages ++ List.replicate (6 - usages.length) 0#8)
    (changed = false → mods = s.ePrevmods → envAct p s = { s with mainAt := .done }) ∧
    (changed = true ∨ mods ≠ s.ePrevmods →
      (s.mMode = .replaying → envAct p s = { s with ePrevmods := mods, history := s.history ++ logged, mainAt := .done }) ∧
      (s.mMode = .stopped → envAct p s = { s with
        ePrevmods := mods, history := s.history ++ logged ++ [.usb report], mainAt := .done }) ∧
      (s.mMode = .recording → ∃ r, bytesOf r = report ∧ envAct p s = { s with
        ePrevmods := mods, history := s.history ++ logged ++ [.usb report], mainAt := .report r }))

/-- The safety deadline (47_environment R170): disarmed when the keys are up, extended by a replay, left alone before its time; on
expiry, with the macro stopped, three turns of the main context clear the keys, the modifiers and the release flag and emit one
all-zero report. -/
def Obligations.SafetyDeadlineClearsStuckKeys : Prop :=
  ∀ s : State, MainFree s → s.mainPc = .lSafety → s.mainAt = .start → s.eArmed = true →
    ((∀ c ∈ s.eKeys.toList, c = 0#32) → step s = .next { s with eArmed := false, mainPc := .lResend }) ∧
    ((∃ c ∈ s.eKeys.toList, c ≠ 0#32) →
      (s.mMode = .replaying → step s = .next { s with eDeadline := s.tMs + 60000, mainPc := .lResend }) ∧
      (s.mMode ≠ .replaying → s.tMs.toNat < s.eDeadline.toNat → step s = .next { s with mainPc := .lResend }) ∧
      (s.mMode = .stopped → s.eDeadline.toNat ≤ s.tMs.toNat →
        ∃ u v t, step s = .next u ∧ step u = .next v ∧ step v = .next t ∧
          t = { s with eKeys := Vector.replicate 6 0, kMods := 0, kRel := false, ePrevmods := 0, eArmed := false,
                       history := s.history ++ [.usb (List.replicate 8 0#8)], mainPc := .lResend }))

/-- Replay owns the output (47_environment R172): while Replaying, no turn of the main context but L_SERVICE's emits a report. -/
def Obligations.NoLiveReportWhileReplaying : Prop :=
  ∀ s t : State, s.input = [] → s.mMode = .replaying → mainNext s ≠ .op .service → step s = .next t →
    reportsOf t.history = reportsOf s.history
end

