-- ==== Sys2Proof/Laws/Encoding.lean ====
section
/-! SUPPORT. The fields of the encoder's words: what each extraction of the decoder finds in them. -/

namespace Sys2Proof

/-- The low part of an append. -/
theorem append_extract_low {a b : Nat} (x : BitVec a) (y : BitVec b) : (x ++ y).extractLsb' 0 b = y := by
  apply BitVec.eq_of_getElem_eq
  intro i hi
  simp [BitVec.getElem_extractLsb', BitVec.getLsbD_append, hi]

/-- A field of the high part of an append. -/
theorem append_extract_high {a b : Nat} (x : BitVec a) (y : BitVec b) (i n : Nat) :
    (x ++ y).extractLsb' (b + i) n = x.extractLsb' i n := by
  apply BitVec.eq_of_getElem_eq
  intro k hk
  simp [BitVec.getElem_extractLsb', BitVec.getLsbD_append, Nat.add_assoc]

/-- A bit of the low part of an append. -/
theorem append_bit_low {a b : Nat} (x : BitVec a) (y : BitVec b) (i : Nat) (h : i < b) :
    (x ++ y).getLsbD i = y.getLsbD i := by
  simp [BitVec.getLsbD_append, h]

/-- A bit of the high part of an append. -/
theorem append_bit_high {a b : Nat} (x : BitVec a) (y : BitVec b) (i : Nat) :
    (x ++ y).getLsbD (b + i) = x.getLsbD i := by
  simp [BitVec.getLsbD_append]

/-- PAY of an operation word. -/
@[simp] theorem opWord_pay (k : BitVec 5) (b : Byte) : (opWord k b).extractLsb' 0 8 = b :=
  append_extract_low _ _

/-- Z of an operation word. -/
@[simp] theorem opWord_z (k : BitVec 5) (b : Byte) : (opWord k b).extractLsb' 8 3 = 0#3 :=
  (append_extract_high (k ++ 0#3) b 0 3).trans (append_extract_low _ _)

/-- OPSEL of an operation word. -/
@[simp] theorem opWord_opsel (k : BitVec 5) (b : Byte) : (opWord k b).extractLsb' 11 5 = k :=
  (append_extract_high (k ++ 0#3) b 3 5).trans ((append_extract_high k (0#3) 0 5).trans (by simp))

/-- The upper four bits of OPSEL. -/
@[simp] theorem opWord_opselHigh4 (k : BitVec 5) (b : Byte) :
    (opWord k b).extractLsb' 12 4 = k.extractLsb' 1 4 :=
  (append_extract_high (k ++ 0#3) b 4 4).trans (append_extract_high k (0#3) 1 4)

/-- The upper three bits of OPSEL. -/
@[simp] theorem opWord_opselHigh3 (k : BitVec 5) (b : Byte) :
    (opWord k b).extractLsb' 13 3 = k.extractLsb' 2 3 :=
  (append_extract_high (k ++ 0#3) b 5 3).trans (append_extract_high k (0#3) 2 3)

/-- The byte of a byte word. -/
@[simp] theorem byteWord_low (b : Byte) : (byteWord b).extractLsb' 0 8 = b := append_extract_low _ _

/-- The upper half of a byte word. -/
@[simp] theorem byteWord_high (b : Byte) : (byteWord b).extractLsb' 8 8 = 0#8 :=
  (append_extract_high 0#8 b 0 8).trans (by simp)

/-- Masking the payload away leaves the operation word of payload 0. -/
theorem opWord_masked (k : BitVec 5) (b : Byte) : opWord k b &&& 0xFF00 = opWord k 0 := by
  change ((k ++ 0#3) ++ b) &&& (0xFF#8 ++ 0#8) = (k ++ 0#3) ++ 0#8
  rw [BitVec.and_append]
  congr 1
  · exact BitVec.and_allOnes
  · simp

/-- A report word's fixed bits do not depend on len. -/
theorem reportWord_masked (l : BitVec 4) : opWord 0x14 (0#4 ++ l) &&& 0xFFF0 = 0xA000 := by
  revert l; decide

/-- The high byte of a two-byte command. -/
theorem cmdWord_masked (v : Byte) : (0xED#8 ++ v : BitVec 16) &&& 0xFF00 = 0xED00 := by
  change (0xED#8 ++ v) &&& (0xFF#8 ++ 0#8) = 0xED#8 ++ 0#8
  rw [BitVec.and_append]
  simp

/-- The start and stop bits of a device-to-host frame. -/
theorem frameRxWord_masked (d : Byte) (p : Bool) : wordOf (.frameRx d p) &&& 0x401 = 0x400 := by
  change ((1#6 ++ BitVec.ofBool p ++ d) ++ 0#1) &&& (((1#6 ++ 0#1) ++ 0#8) ++ 1#1) = ((1#6 ++ 0#1) ++ 0#8) ++ 0#1
  rw [BitVec.and_append, BitVec.and_append, BitVec.and_append]
  simp

/-- The start and stop bits of a host-to-device sequence. -/
theorem frameTxWord_masked (d : Byte) (p a : Bool) : wordOf (.frameTx d p a) &&& 0x401 = 0x400 := by
  change ((((0#4 ++ BitVec.ofBool a) ++ 1#1) ++ BitVec.ofBool p ++ d) ++ 0#1) &&&
      (((((0#4 ++ 0#1) ++ 1#1) ++ 0#1) ++ 0#8) ++ 1#1) = ((((0#4 ++ 0#1) ++ 1#1) ++ 0#1) ++ 0#8) ++ 0#1
  rw [BitVec.and_append, BitVec.and_append, BitVec.and_append, BitVec.and_append, BitVec.and_append]
  simp

/-- The selector bits of the first reserved row. -/
theorem reserved1A1BWord_masked (x : BitVec 12) : wordOf (.reserved1A1B x) &&& 0xF000 = 0xD000 := by
  change (0b1101#4 ++ x) &&& (0b1111#4 ++ 0#12) = 0b1101#4 ++ 0#12
  rw [BitVec.and_append]
  simp

/-- The selector bits of the second reserved row. -/
theorem reserved1C1FWord_masked (x : BitVec 13) : wordOf (.reserved1C1F x) &&& 0xE000 = 0xE000 := by
  change (0b111#3 ++ x) &&& (0b111#3 ++ 0#13) = 0b111#3 ++ 0#13
  rw [BitVec.and_append]
  simp

end Sys2Proof
end

