-- ==== Sys2Proof/Laws/Environment.lean ====
section
/-! SUPPORT. What 47_environment R171 requires of the OPEN parameters holds of the machine's, whatever the implementation chose. -/

namespace Sys2Proof.Machine

/-- Admissible parameters are taken as they are. -/
theorem accept_of_admissible {p : EnvParams} (h : p.admissible = true) : p.accept = p := if_pos h

/-- Whatever is chosen, the parameters taken are admissible. -/
theorem accept_admissible (p : EnvParams) : p.accept.admissible = true := by
  unfold EnvParams.accept
  split
  · assumption
  · decide

/-- The machine's parameters are admissible (47 R171). -/
theorem env_admissible : Config.env.admissible = true := accept_admissible _

/-- What being admissible says, clause by clause. -/
theorem admissible_iff (p : EnvParams) : p.admissible = true ↔
    p.hotkeys.Nodup ∧ (0 : Code) ∉ p.hotkeys ∧ p.translate 0x0000001C = 0x04 ∧ p.translate 0x0000E075 = 0x52 ∧
      p.unsupported ≠ 0x04 ∧ p.unsupported ≠ 0x52 := by
  simp [EnvParams.admissible, and_assoc]

/-- A code is a hotkey when it is one of the four. -/
theorem isHotkey_iff (p : EnvParams) (c : Code) : isHotkey p c = true ↔ c ∈ p.hotkeys := by
  simp [isHotkey]

/-- The two table entries the source gives are supported (47 R171). -/
theorem envUsage_given {p : EnvParams} (h : p.admissible = true) :
    envUsage p 0x0000001C = some 0x04 ∧ envUsage p 0x0000E075 = some 0x52 := by
  obtain ⟨_, _, h1, h2, h3, h4⟩ := (admissible_iff p).mp h
  constructor
  · simp only [envUsage, h1, if_neg h3.symm]
  · simp only [envUsage, h2, if_neg h4.symm]

/-- A code with a usage has one that is not UNSUPPORTED (47 R168, R171). -/
theorem envUsage_ne_unsupported {p : EnvParams} {c : Code} {u : Byte} (h : envUsage p c = some u) : u ≠ p.unsupported := by
  unfold envUsage at h
  split at h
  · cases h
  · cases h; assumption

end Sys2Proof.Machine
end

