-- ==== Sys2Proof/Laws/State.lean ====
section
/-! SUPPORT. One lemma per field per named update of the state, true by rfl, so that no later proof unfolds an update. -/

namespace Sys2Proof.Machine

/-! ## raise -/

@[simp] theorem raise_xMode (e : ErrorEvent) (s : State) : (raise e s).xMode = s.xMode := rfl
@[simp] theorem raise_xBitpos (e : ErrorEvent) (s : State) : (raise e s).xBitpos = s.xBitpos := rfl
@[simp] theorem raise_xRxshift (e : ErrorEvent) (s : State) : (raise e s).xRxshift = s.xRxshift := rfl
@[simp] theorem raise_xRxpar (e : ErrorEvent) (s : State) : (raise e s).xRxpar = s.xRxpar := rfl
@[simp] theorem raise_xTxbyte (e : ErrorEvent) (s : State) : (raise e s).xTxbyte = s.xTxbyte := rfl
@[simp] theorem raise_xTxpar (e : ErrorEvent) (s : State) : (raise e s).xTxpar = s.xTxpar := rfl
@[simp] theorem raise_xRecover (e : ErrorEvent) (s : State) : (raise e s).xRecover = s.xRecover := rfl
@[simp] theorem raise_xAckst (e : ErrorEvent) (s : State) : (raise e s).xAckst = s.xAckst := rfl
@[simp] theorem raise_xResend (e : ErrorEvent) (s : State) : (raise e s).xResend = s.xResend := rfl
@[simp] theorem raise_xFerr (e : ErrorEvent) (s : State) : (raise e s).xFerr = s.xFerr := rfl
@[simp] theorem raise_xPerr (e : ErrorEvent) (s : State) : (raise e s).xPerr = s.xPerr := rfl
@[simp] theorem raise_xOvf (e : ErrorEvent) (s : State) : (raise e s).xOvf = s.xOvf := rfl
@[simp] theorem raise_rb (e : ErrorEvent) (s : State) : (raise e s).rb = s.rb := rfl
@[simp] theorem raise_rbWr (e : ErrorEvent) (s : State) : (raise e s).rbWr = s.rbWr := rfl
@[simp] theorem raise_rbRd (e : ErrorEvent) (s : State) : (raise e s).rbRd = s.rbRd := rfl
@[simp] theorem raise_clkOut (e : ErrorEvent) (s : State) : (raise e s).clkOut = s.clkOut := rfl
@[simp] theorem raise_dataOut (e : ErrorEvent) (s : State) : (raise e s).dataOut = s.dataOut := rfl
@[simp] theorem raise_sState (e : ErrorEvent) (s : State) : (raise e s).sState = s.sState := rfl
@[simp] theorem raise_sByte (e : ErrorEvent) (s : State) : (raise e s).sByte = s.sByte := rfl
@[simp] theorem raise_sAttempt (e : ErrorEvent) (s : State) : (raise e s).sAttempt = s.sAttempt := rfl
@[simp] theorem raise_sResult (e : ErrorEvent) (s : State) : (raise e s).sResult = s.sResult := rfl
@[simp] theorem raise_kMode (e : ErrorEvent) (s : State) : (raise e s).kMode = s.kMode := rfl
@[simp] theorem raise_kMods (e : ErrorEvent) (s : State) : (raise e s).kMods = s.kMods := rfl
@[simp] theorem raise_kRel (e : ErrorEvent) (s : State) : (raise e s).kRel = s.kRel := rfl
@[simp] theorem raise_kP2 (e : ErrorEvent) (s : State) : (raise e s).kP2 = s.kP2 := rfl
@[simp] theorem raise_mMode (e : ErrorEvent) (s : State) : (raise e s).mMode = s.mMode := rfl
@[simp] theorem raise_mCursor (e : ErrorEvent) (s : State) : (raise e s).mCursor = s.mCursor := rfl
@[simp] theorem raise_mFill (e : ErrorEvent) (s : State) : (raise e s).mFill = s.mFill := rfl
@[simp] theorem raise_mLast (e : ErrorEvent) (s : State) : (raise e s).mLast = s.mLast := rfl
@[simp] theorem raise_mNext (e : ErrorEvent) (s : State) : (raise e s).mNext = s.mNext := rfl
@[simp] theorem raise_mLedph (e : ErrorEvent) (s : State) : (raise e s).mLedph = s.mLedph := rfl
@[simp] theorem raise_mLedt (e : ErrorEvent) (s : State) : (raise e s).mLedt = s.mLedt := rfl
@[simp] theorem raise_steps (e : ErrorEvent) (s : State) : (raise e s).steps = s.steps := rfl
@[simp] theorem raise_tMs (e : ErrorEvent) (s : State) : (raise e s).tMs = s.tMs := rfl
@[simp] theorem raise_hLed (e : ErrorEvent) (s : State) : (raise e s).hLed = s.hLed := rfl
@[simp] theorem raise_hDirty (e : ErrorEvent) (s : State) : (raise e s).hDirty = s.hDirty := rfl
@[simp] theorem raise_mainPc (e : ErrorEvent) (s : State) : (raise e s).mainPc = s.mainPc := rfl
@[simp] theorem raise_mainAt (e : ErrorEvent) (s : State) : (raise e s).mainAt = s.mainAt := rfl
@[simp] theorem raise_sends (e : ErrorEvent) (s : State) : (raise e s).sends = s.sends := rfl
@[simp] theorem raise_eKeys (e : ErrorEvent) (s : State) : (raise e s).eKeys = s.eKeys := rfl
@[simp] theorem raise_ePrevmods (e : ErrorEvent) (s : State) : (raise e s).ePrevmods = s.ePrevmods := rfl
@[simp] theorem raise_eDeadline (e : ErrorEvent) (s : State) : (raise e s).eDeadline = s.eDeadline := rfl
@[simp] theorem raise_eArmed (e : ErrorEvent) (s : State) : (raise e s).eArmed = s.eArmed := rfl
@[simp] theorem raise_history (e : ErrorEvent) (s : State) : (raise e s).history = s.history ++ [.error e] := rfl
@[simp] theorem raise_result (e : ErrorEvent) (s : State) : (raise e s).result = s.result := rfl
@[simp] theorem raise_input (e : ErrorEvent) (s : State) : (raise e s).input = s.input := rfl
@[simp] theorem raise_freeCount (e : ErrorEvent) (s : State) : (raise e s).freeCount = s.freeCount := rfl

/-! ## emitUsb -/

@[simp] theorem emitUsb_xMode (r : List Byte) (s : State) : (emitUsb r s).xMode = s.xMode := rfl
@[simp] theorem emitUsb_xBitpos (r : List Byte) (s : State) : (emitUsb r s).xBitpos = s.xBitpos := rfl
@[simp] theorem emitUsb_xRxshift (r : List Byte) (s : State) : (emitUsb r s).xRxshift = s.xRxshift := rfl
@[simp] theorem emitUsb_xRxpar (r : List Byte) (s : State) : (emitUsb r s).xRxpar = s.xRxpar := rfl
@[simp] theorem emitUsb_xTxbyte (r : List Byte) (s : State) : (emitUsb r s).xTxbyte = s.xTxbyte := rfl
@[simp] theorem emitUsb_xTxpar (r : List Byte) (s : State) : (emitUsb r s).xTxpar = s.xTxpar := rfl
@[simp] theorem emitUsb_xRecover (r : List Byte) (s : State) : (emitUsb r s).xRecover = s.xRecover := rfl
@[simp] theorem emitUsb_xAckst (r : List Byte) (s : State) : (emitUsb r s).xAckst = s.xAckst := rfl
@[simp] theorem emitUsb_xResend (r : List Byte) (s : State) : (emitUsb r s).xResend = s.xResend := rfl
@[simp] theorem emitUsb_xFerr (r : List Byte) (s : State) : (emitUsb r s).xFerr = s.xFerr := rfl
@[simp] theorem emitUsb_xPerr (r : List Byte) (s : State) : (emitUsb r s).xPerr = s.xPerr := rfl
@[simp] theorem emitUsb_xOvf (r : List Byte) (s : State) : (emitUsb r s).xOvf = s.xOvf := rfl
@[simp] theorem emitUsb_rb (r : List Byte) (s : State) : (emitUsb r s).rb = s.rb := rfl
@[simp] theorem emitUsb_rbWr (r : List Byte) (s : State) : (emitUsb r s).rbWr = s.rbWr := rfl
@[simp] theorem emitUsb_rbRd (r : List Byte) (s : State) : (emitUsb r s).rbRd = s.rbRd := rfl
@[simp] theorem emitUsb_clkOut (r : List Byte) (s : State) : (emitUsb r s).clkOut = s.clkOut := rfl
@[simp] theorem emitUsb_dataOut (r : List Byte) (s : State) : (emitUsb r s).dataOut = s.dataOut := rfl
@[simp] theorem emitUsb_sState (r : List Byte) (s : State) : (emitUsb r s).sState = s.sState := rfl
@[simp] theorem emitUsb_sByte (r : List Byte) (s : State) : (emitUsb r s).sByte = s.sByte := rfl
@[simp] theorem emitUsb_sAttempt (r : List Byte) (s : State) : (emitUsb r s).sAttempt = s.sAttempt := rfl
@[simp] theorem emitUsb_sResult (r : List Byte) (s : State) : (emitUsb r s).sResult = s.sResult := rfl
@[simp] theorem emitUsb_kMode (r : List Byte) (s : State) : (emitUsb r s).kMode = s.kMode := rfl
@[simp] theorem emitUsb_kMods (r : List Byte) (s : State) : (emitUsb r s).kMods = s.kMods := rfl
@[simp] theorem emitUsb_kRel (r : List Byte) (s : State) : (emitUsb r s).kRel = s.kRel := rfl
@[simp] theorem emitUsb_kP2 (r : List Byte) (s : State) : (emitUsb r s).kP2 = s.kP2 := rfl
@[simp] theorem emitUsb_mMode (r : List Byte) (s : State) : (emitUsb r s).mMode = s.mMode := rfl
@[simp] theorem emitUsb_mCursor (r : List Byte) (s : State) : (emitUsb r s).mCursor = s.mCursor := rfl
@[simp] theorem emitUsb_mFill (r : List Byte) (s : State) : (emitUsb r s).mFill = s.mFill := rfl
@[simp] theorem emitUsb_mLast (r : List Byte) (s : State) : (emitUsb r s).mLast = s.mLast := rfl
@[simp] theorem emitUsb_mNext (r : List Byte) (s : State) : (emitUsb r s).mNext = s.mNext := rfl
@[simp] theorem emitUsb_mLedph (r : List Byte) (s : State) : (emitUsb r s).mLedph = s.mLedph := rfl
@[simp] theorem emitUsb_mLedt (r : List Byte) (s : State) : (emitUsb r s).mLedt = s.mLedt := rfl
@[simp] theorem emitUsb_steps (r : List Byte) (s : State) : (emitUsb r s).steps = s.steps := rfl
@[simp] theorem emitUsb_tMs (r : List Byte) (s : State) : (emitUsb r s).tMs = s.tMs := rfl
@[simp] theorem emitUsb_hLed (r : List Byte) (s : State) : (emitUsb r s).hLed = s.hLed := rfl
@[simp] theorem emitUsb_hDirty (r : List Byte) (s : State) : (emitUsb r s).hDirty = s.hDirty := rfl
@[simp] theorem emitUsb_mainPc (r : List Byte) (s : State) : (emitUsb r s).mainPc = s.mainPc := rfl
@[simp] theorem emitUsb_mainAt (r : List Byte) (s : State) : (emitUsb r s).mainAt = s.mainAt := rfl
@[simp] theorem emitUsb_sends (r : List Byte) (s : State) : (emitUsb r s).sends = s.sends := rfl
@[simp] theorem emitUsb_eKeys (r : List Byte) (s : State) : (emitUsb r s).eKeys = s.eKeys := rfl
@[simp] theorem emitUsb_ePrevmods (r : List Byte) (s : State) : (emitUsb r s).ePrevmods = s.ePrevmods := rfl
@[simp] theorem emitUsb_eDeadline (r : List Byte) (s : State) : (emitUsb r s).eDeadline = s.eDeadline := rfl
@[simp] theorem emitUsb_eArmed (r : List Byte) (s : State) : (emitUsb r s).eArmed = s.eArmed := rfl
@[simp] theorem emitUsb_history (r : List Byte) (s : State) : (emitUsb r s).history = s.history ++ [.usb r] := rfl
@[simp] theorem emitUsb_result (r : List Byte) (s : State) : (emitUsb r s).result = s.result := rfl
@[simp] theorem emitUsb_input (r : List Byte) (s : State) : (emitUsb r s).input = s.input := rfl
@[simp] theorem emitUsb_freeCount (r : List Byte) (s : State) : (emitUsb r s).freeCount = s.freeCount := rfl

/-! ## ret -/

@[simp] theorem ret_xMode (r : Result) (s : State) : (ret r s).xMode = s.xMode := rfl
@[simp] theorem ret_xBitpos (r : Result) (s : State) : (ret r s).xBitpos = s.xBitpos := rfl
@[simp] theorem ret_xRxshift (r : Result) (s : State) : (ret r s).xRxshift = s.xRxshift := rfl
@[simp] theorem ret_xRxpar (r : Result) (s : State) : (ret r s).xRxpar = s.xRxpar := rfl
@[simp] theorem ret_xTxbyte (r : Result) (s : State) : (ret r s).xTxbyte = s.xTxbyte := rfl
@[simp] theorem ret_xTxpar (r : Result) (s : State) : (ret r s).xTxpar = s.xTxpar := rfl
@[simp] theorem ret_xRecover (r : Result) (s : State) : (ret r s).xRecover = s.xRecover := rfl
@[simp] theorem ret_xAckst (r : Result) (s : State) : (ret r s).xAckst = s.xAckst := rfl
@[simp] theorem ret_xResend (r : Result) (s : State) : (ret r s).xResend = s.xResend := rfl
@[simp] theorem ret_xFerr (r : Result) (s : State) : (ret r s).xFerr = s.xFerr := rfl
@[simp] theorem ret_xPerr (r : Result) (s : State) : (ret r s).xPerr = s.xPerr := rfl
@[simp] theorem ret_xOvf (r : Result) (s : State) : (ret r s).xOvf = s.xOvf := rfl
@[simp] theorem ret_rb (r : Result) (s : State) : (ret r s).rb = s.rb := rfl
@[simp] theorem ret_rbWr (r : Result) (s : State) : (ret r s).rbWr = s.rbWr := rfl
@[simp] theorem ret_rbRd (r : Result) (s : State) : (ret r s).rbRd = s.rbRd := rfl
@[simp] theorem ret_clkOut (r : Result) (s : State) : (ret r s).clkOut = s.clkOut := rfl
@[simp] theorem ret_dataOut (r : Result) (s : State) : (ret r s).dataOut = s.dataOut := rfl
@[simp] theorem ret_sState (r : Result) (s : State) : (ret r s).sState = s.sState := rfl
@[simp] theorem ret_sByte (r : Result) (s : State) : (ret r s).sByte = s.sByte := rfl
@[simp] theorem ret_sAttempt (r : Result) (s : State) : (ret r s).sAttempt = s.sAttempt := rfl
@[simp] theorem ret_sResult (r : Result) (s : State) : (ret r s).sResult = s.sResult := rfl
@[simp] theorem ret_kMode (r : Result) (s : State) : (ret r s).kMode = s.kMode := rfl
@[simp] theorem ret_kMods (r : Result) (s : State) : (ret r s).kMods = s.kMods := rfl
@[simp] theorem ret_kRel (r : Result) (s : State) : (ret r s).kRel = s.kRel := rfl
@[simp] theorem ret_kP2 (r : Result) (s : State) : (ret r s).kP2 = s.kP2 := rfl
@[simp] theorem ret_mMode (r : Result) (s : State) : (ret r s).mMode = s.mMode := rfl
@[simp] theorem ret_mCursor (r : Result) (s : State) : (ret r s).mCursor = s.mCursor := rfl
@[simp] theorem ret_mFill (r : Result) (s : State) : (ret r s).mFill = s.mFill := rfl
@[simp] theorem ret_mLast (r : Result) (s : State) : (ret r s).mLast = s.mLast := rfl
@[simp] theorem ret_mNext (r : Result) (s : State) : (ret r s).mNext = s.mNext := rfl
@[simp] theorem ret_mLedph (r : Result) (s : State) : (ret r s).mLedph = s.mLedph := rfl
@[simp] theorem ret_mLedt (r : Result) (s : State) : (ret r s).mLedt = s.mLedt := rfl
@[simp] theorem ret_steps (r : Result) (s : State) : (ret r s).steps = s.steps := rfl
@[simp] theorem ret_tMs (r : Result) (s : State) : (ret r s).tMs = s.tMs := rfl
@[simp] theorem ret_hLed (r : Result) (s : State) : (ret r s).hLed = s.hLed := rfl
@[simp] theorem ret_hDirty (r : Result) (s : State) : (ret r s).hDirty = s.hDirty := rfl
@[simp] theorem ret_mainPc (r : Result) (s : State) : (ret r s).mainPc = s.mainPc := rfl
@[simp] theorem ret_mainAt (r : Result) (s : State) : (ret r s).mainAt = s.mainAt := rfl
@[simp] theorem ret_sends (r : Result) (s : State) : (ret r s).sends = s.sends := rfl
@[simp] theorem ret_eKeys (r : Result) (s : State) : (ret r s).eKeys = s.eKeys := rfl
@[simp] theorem ret_ePrevmods (r : Result) (s : State) : (ret r s).ePrevmods = s.ePrevmods := rfl
@[simp] theorem ret_eDeadline (r : Result) (s : State) : (ret r s).eDeadline = s.eDeadline := rfl
@[simp] theorem ret_eArmed (r : Result) (s : State) : (ret r s).eArmed = s.eArmed := rfl
@[simp] theorem ret_history (r : Result) (s : State) : (ret r s).history = s.history := rfl
@[simp] theorem ret_result (r : Result) (s : State) : (ret r s).result = r := rfl
@[simp] theorem ret_input (r : Result) (s : State) : (ret r s).input = s.input := rfl
@[simp] theorem ret_freeCount (r : Result) (s : State) : (ret r s).freeCount = s.freeCount := rfl

/-! ## goto -/

@[simp] theorem goto_xMode (l : MainLabel) (s : State) : (goto l s).xMode = s.xMode := rfl
@[simp] theorem goto_xBitpos (l : MainLabel) (s : State) : (goto l s).xBitpos = s.xBitpos := rfl
@[simp] theorem goto_xRxshift (l : MainLabel) (s : State) : (goto l s).xRxshift = s.xRxshift := rfl
@[simp] theorem goto_xRxpar (l : MainLabel) (s : State) : (goto l s).xRxpar = s.xRxpar := rfl
@[simp] theorem goto_xTxbyte (l : MainLabel) (s : State) : (goto l s).xTxbyte = s.xTxbyte := rfl
@[simp] theorem goto_xTxpar (l : MainLabel) (s : State) : (goto l s).xTxpar = s.xTxpar := rfl
@[simp] theorem goto_xRecover (l : MainLabel) (s : State) : (goto l s).xRecover = s.xRecover := rfl
@[simp] theorem goto_xAckst (l : MainLabel) (s : State) : (goto l s).xAckst = s.xAckst := rfl
@[simp] theorem goto_xResend (l : MainLabel) (s : State) : (goto l s).xResend = s.xResend := rfl
@[simp] theorem goto_xFerr (l : MainLabel) (s : State) : (goto l s).xFerr = s.xFerr := rfl
@[simp] theorem goto_xPerr (l : MainLabel) (s : State) : (goto l s).xPerr = s.xPerr := rfl
@[simp] theorem goto_xOvf (l : MainLabel) (s : State) : (goto l s).xOvf = s.xOvf := rfl
@[simp] theorem goto_rb (l : MainLabel) (s : State) : (goto l s).rb = s.rb := rfl
@[simp] theorem goto_rbWr (l : MainLabel) (s : State) : (goto l s).rbWr = s.rbWr := rfl
@[simp] theorem goto_rbRd (l : MainLabel) (s : State) : (goto l s).rbRd = s.rbRd := rfl
@[simp] theorem goto_clkOut (l : MainLabel) (s : State) : (goto l s).clkOut = s.clkOut := rfl
@[simp] theorem goto_dataOut (l : MainLabel) (s : State) : (goto l s).dataOut = s.dataOut := rfl
@[simp] theorem goto_sState (l : MainLabel) (s : State) : (goto l s).sState = s.sState := rfl
@[simp] theorem goto_sByte (l : MainLabel) (s : State) : (goto l s).sByte = s.sByte := rfl
@[simp] theorem goto_sAttempt (l : MainLabel) (s : State) : (goto l s).sAttempt = s.sAttempt := rfl
@[simp] theorem goto_sResult (l : MainLabel) (s : State) : (goto l s).sResult = s.sResult := rfl
@[simp] theorem goto_kMode (l : MainLabel) (s : State) : (goto l s).kMode = s.kMode := rfl
@[simp] theorem goto_kMods (l : MainLabel) (s : State) : (goto l s).kMods = s.kMods := rfl
@[simp] theorem goto_kRel (l : MainLabel) (s : State) : (goto l s).kRel = s.kRel := rfl
@[simp] theorem goto_kP2 (l : MainLabel) (s : State) : (goto l s).kP2 = s.kP2 := rfl
@[simp] theorem goto_mMode (l : MainLabel) (s : State) : (goto l s).mMode = s.mMode := rfl
@[simp] theorem goto_mCursor (l : MainLabel) (s : State) : (goto l s).mCursor = s.mCursor := rfl
@[simp] theorem goto_mFill (l : MainLabel) (s : State) : (goto l s).mFill = s.mFill := rfl
@[simp] theorem goto_mLast (l : MainLabel) (s : State) : (goto l s).mLast = s.mLast := rfl
@[simp] theorem goto_mNext (l : MainLabel) (s : State) : (goto l s).mNext = s.mNext := rfl
@[simp] theorem goto_mLedph (l : MainLabel) (s : State) : (goto l s).mLedph = s.mLedph := rfl
@[simp] theorem goto_mLedt (l : MainLabel) (s : State) : (goto l s).mLedt = s.mLedt := rfl
@[simp] theorem goto_steps (l : MainLabel) (s : State) : (goto l s).steps = s.steps := rfl
@[simp] theorem goto_tMs (l : MainLabel) (s : State) : (goto l s).tMs = s.tMs := rfl
@[simp] theorem goto_hLed (l : MainLabel) (s : State) : (goto l s).hLed = s.hLed := rfl
@[simp] theorem goto_hDirty (l : MainLabel) (s : State) : (goto l s).hDirty = s.hDirty := rfl
@[simp] theorem goto_mainPc (l : MainLabel) (s : State) : (goto l s).mainPc = l := rfl
@[simp] theorem goto_mainAt (l : MainLabel) (s : State) : (goto l s).mainAt = .start := rfl
@[simp] theorem goto_sends (l : MainLabel) (s : State) : (goto l s).sends = s.sends := rfl
@[simp] theorem goto_eKeys (l : MainLabel) (s : State) : (goto l s).eKeys = s.eKeys := rfl
@[simp] theorem goto_ePrevmods (l : MainLabel) (s : State) : (goto l s).ePrevmods = s.ePrevmods := rfl
@[simp] theorem goto_eDeadline (l : MainLabel) (s : State) : (goto l s).eDeadline = s.eDeadline := rfl
@[simp] theorem goto_eArmed (l : MainLabel) (s : State) : (goto l s).eArmed = s.eArmed := rfl
@[simp] theorem goto_history (l : MainLabel) (s : State) : (goto l s).history = s.history := rfl
@[simp] theorem goto_result (l : MainLabel) (s : State) : (goto l s).result = s.result := rfl
@[simp] theorem goto_input (l : MainLabel) (s : State) : (goto l s).input = s.input := rfl
@[simp] theorem goto_freeCount (l : MainLabel) (s : State) : (goto l s).freeCount = s.freeCount := rfl

/-! ## goAt -/

@[simp] theorem goAt_xMode (m : MainPoint) (s : State) : (goAt m s).xMode = s.xMode := rfl
@[simp] theorem goAt_xBitpos (m : MainPoint) (s : State) : (goAt m s).xBitpos = s.xBitpos := rfl
@[simp] theorem goAt_xRxshift (m : MainPoint) (s : State) : (goAt m s).xRxshift = s.xRxshift := rfl
@[simp] theorem goAt_xRxpar (m : MainPoint) (s : State) : (goAt m s).xRxpar = s.xRxpar := rfl
@[simp] theorem goAt_xTxbyte (m : MainPoint) (s : State) : (goAt m s).xTxbyte = s.xTxbyte := rfl
@[simp] theorem goAt_xTxpar (m : MainPoint) (s : State) : (goAt m s).xTxpar = s.xTxpar := rfl
@[simp] theorem goAt_xRecover (m : MainPoint) (s : State) : (goAt m s).xRecover = s.xRecover := rfl
@[simp] theorem goAt_xAckst (m : MainPoint) (s : State) : (goAt m s).xAckst = s.xAckst := rfl
@[simp] theorem goAt_xResend (m : MainPoint) (s : State) : (goAt m s).xResend = s.xResend := rfl
@[simp] theorem goAt_xFerr (m : MainPoint) (s : State) : (goAt m s).xFerr = s.xFerr := rfl
@[simp] theorem goAt_xPerr (m : MainPoint) (s : State) : (goAt m s).xPerr = s.xPerr := rfl
@[simp] theorem goAt_xOvf (m : MainPoint) (s : State) : (goAt m s).xOvf = s.xOvf := rfl
@[simp] theorem goAt_rb (m : MainPoint) (s : State) : (goAt m s).rb = s.rb := rfl
@[simp] theorem goAt_rbWr (m : MainPoint) (s : State) : (goAt m s).rbWr = s.rbWr := rfl
@[simp] theorem goAt_rbRd (m : MainPoint) (s : State) : (goAt m s).rbRd = s.rbRd := rfl
@[simp] theorem goAt_clkOut (m : MainPoint) (s : State) : (goAt m s).clkOut = s.clkOut := rfl
@[simp] theorem goAt_dataOut (m : MainPoint) (s : State) : (goAt m s).dataOut = s.dataOut := rfl
@[simp] theorem goAt_sState (m : MainPoint) (s : State) : (goAt m s).sState = s.sState := rfl
@[simp] theorem goAt_sByte (m : MainPoint) (s : State) : (goAt m s).sByte = s.sByte := rfl
@[simp] theorem goAt_sAttempt (m : MainPoint) (s : State) : (goAt m s).sAttempt = s.sAttempt := rfl
@[simp] theorem goAt_sResult (m : MainPoint) (s : State) : (goAt m s).sResult = s.sResult := rfl
@[simp] theorem goAt_kMode (m : MainPoint) (s : State) : (goAt m s).kMode = s.kMode := rfl
@[simp] theorem goAt_kMods (m : MainPoint) (s : State) : (goAt m s).kMods = s.kMods := rfl
@[simp] theorem goAt_kRel (m : MainPoint) (s : State) : (goAt m s).kRel = s.kRel := rfl
@[simp] theorem goAt_kP2 (m : MainPoint) (s : State) : (goAt m s).kP2 = s.kP2 := rfl
@[simp] theorem goAt_mMode (m : MainPoint) (s : State) : (goAt m s).mMode = s.mMode := rfl
@[simp] theorem goAt_mCursor (m : MainPoint) (s : State) : (goAt m s).mCursor = s.mCursor := rfl
@[simp] theorem goAt_mFill (m : MainPoint) (s : State) : (goAt m s).mFill = s.mFill := rfl
@[simp] theorem goAt_mLast (m : MainPoint) (s : State) : (goAt m s).mLast = s.mLast := rfl
@[simp] theorem goAt_mNext (m : MainPoint) (s : State) : (goAt m s).mNext = s.mNext := rfl
@[simp] theorem goAt_mLedph (m : MainPoint) (s : State) : (goAt m s).mLedph = s.mLedph := rfl
@[simp] theorem goAt_mLedt (m : MainPoint) (s : State) : (goAt m s).mLedt = s.mLedt := rfl
@[simp] theorem goAt_steps (m : MainPoint) (s : State) : (goAt m s).steps = s.steps := rfl
@[simp] theorem goAt_tMs (m : MainPoint) (s : State) : (goAt m s).tMs = s.tMs := rfl
@[simp] theorem goAt_hLed (m : MainPoint) (s : State) : (goAt m s).hLed = s.hLed := rfl
@[simp] theorem goAt_hDirty (m : MainPoint) (s : State) : (goAt m s).hDirty = s.hDirty := rfl
@[simp] theorem goAt_mainPc (m : MainPoint) (s : State) : (goAt m s).mainPc = s.mainPc := rfl
@[simp] theorem goAt_mainAt (m : MainPoint) (s : State) : (goAt m s).mainAt = m := rfl
@[simp] theorem goAt_sends (m : MainPoint) (s : State) : (goAt m s).sends = s.sends := rfl
@[simp] theorem goAt_eKeys (m : MainPoint) (s : State) : (goAt m s).eKeys = s.eKeys := rfl
@[simp] theorem goAt_ePrevmods (m : MainPoint) (s : State) : (goAt m s).ePrevmods = s.ePrevmods := rfl
@[simp] theorem goAt_eDeadline (m : MainPoint) (s : State) : (goAt m s).eDeadline = s.eDeadline := rfl
@[simp] theorem goAt_eArmed (m : MainPoint) (s : State) : (goAt m s).eArmed = s.eArmed := rfl
@[simp] theorem goAt_history (m : MainPoint) (s : State) : (goAt m s).history = s.history := rfl
@[simp] theorem goAt_result (m : MainPoint) (s : State) : (goAt m s).result = s.result := rfl
@[simp] theorem goAt_input (m : MainPoint) (s : State) : (goAt m s).input = s.input := rfl
@[simp] theorem goAt_freeCount (m : MainPoint) (s : State) : (goAt m s).freeCount = s.freeCount := rfl

/-! ## macroStop -/

@[simp] theorem macroStop_xMode (s : State) : (macroStop s).xMode = s.xMode := rfl
@[simp] theorem macroStop_xBitpos (s : State) : (macroStop s).xBitpos = s.xBitpos := rfl
@[simp] theorem macroStop_xRxshift (s : State) : (macroStop s).xRxshift = s.xRxshift := rfl
@[simp] theorem macroStop_xRxpar (s : State) : (macroStop s).xRxpar = s.xRxpar := rfl
@[simp] theorem macroStop_xTxbyte (s : State) : (macroStop s).xTxbyte = s.xTxbyte := rfl
@[simp] theorem macroStop_xTxpar (s : State) : (macroStop s).xTxpar = s.xTxpar := rfl
@[simp] theorem macroStop_xRecover (s : State) : (macroStop s).xRecover = s.xRecover := rfl
@[simp] theorem macroStop_xAckst (s : State) : (macroStop s).xAckst = s.xAckst := rfl
@[simp] theorem macroStop_xResend (s : State) : (macroStop s).xResend = s.xResend := rfl
@[simp] theorem macroStop_xFerr (s : State) : (macroStop s).xFerr = s.xFerr := rfl
@[simp] theorem macroStop_xPerr (s : State) : (macroStop s).xPerr = s.xPerr := rfl
@[simp] theorem macroStop_xOvf (s : State) : (macroStop s).xOvf = s.xOvf := rfl
@[simp] theorem macroStop_rb (s : State) : (macroStop s).rb = s.rb := rfl
@[simp] theorem macroStop_rbWr (s : State) : (macroStop s).rbWr = s.rbWr := rfl
@[simp] theorem macroStop_rbRd (s : State) : (macroStop s).rbRd = s.rbRd := rfl
@[simp] theorem macroStop_clkOut (s : State) : (macroStop s).clkOut = s.clkOut := rfl
@[simp] theorem macroStop_dataOut (s : State) : (macroStop s).dataOut = s.dataOut := rfl
@[simp] theorem macroStop_sState (s : State) : (macroStop s).sState = s.sState := rfl
@[simp] theorem macroStop_sByte (s : State) : (macroStop s).sByte = s.sByte := rfl
@[simp] theorem macroStop_sAttempt (s : State) : (macroStop s).sAttempt = s.sAttempt := rfl
@[simp] theorem macroStop_sResult (s : State) : (macroStop s).sResult = s.sResult := rfl
@[simp] theorem macroStop_kMode (s : State) : (macroStop s).kMode = s.kMode := rfl
@[simp] theorem macroStop_kMods (s : State) : (macroStop s).kMods = s.kMods := rfl
@[simp] theorem macroStop_kRel (s : State) : (macroStop s).kRel = s.kRel := rfl
@[simp] theorem macroStop_kP2 (s : State) : (macroStop s).kP2 = s.kP2 := rfl
@[simp] theorem macroStop_mMode (s : State) : (macroStop s).mMode = .stopped := rfl
@[simp] theorem macroStop_mCursor (s : State) : (macroStop s).mCursor = s.mCursor := rfl
@[simp] theorem macroStop_mFill (s : State) : (macroStop s).mFill = s.mFill := rfl
@[simp] theorem macroStop_mLast (s : State) : (macroStop s).mLast = s.mLast := rfl
@[simp] theorem macroStop_mNext (s : State) : (macroStop s).mNext = s.mNext := rfl
@[simp] theorem macroStop_mLedph (s : State) : (macroStop s).mLedph = s.mLedph := rfl
@[simp] theorem macroStop_mLedt (s : State) : (macroStop s).mLedt = s.mLedt := rfl
@[simp] theorem macroStop_steps (s : State) : (macroStop s).steps = s.steps := rfl
@[simp] theorem macroStop_tMs (s : State) : (macroStop s).tMs = s.tMs := rfl
@[simp] theorem macroStop_hLed (s : State) : (macroStop s).hLed = s.hLed := rfl
@[simp] theorem macroStop_hDirty (s : State) : (macroStop s).hDirty = true := rfl
@[simp] theorem macroStop_mainPc (s : State) : (macroStop s).mainPc = s.mainPc := rfl
@[simp] theorem macroStop_mainAt (s : State) : (macroStop s).mainAt = s.mainAt := rfl
@[simp] theorem macroStop_sends (s : State) : (macroStop s).sends = s.sends := rfl
@[simp] theorem macroStop_eKeys (s : State) : (macroStop s).eKeys = s.eKeys := rfl
@[simp] theorem macroStop_ePrevmods (s : State) : (macroStop s).ePrevmods = s.ePrevmods := rfl
@[simp] theorem macroStop_eDeadline (s : State) : (macroStop s).eDeadline = s.eDeadline := rfl
@[simp] theorem macroStop_eArmed (s : State) : (macroStop s).eArmed = s.eArmed := rfl
@[simp] theorem macroStop_history (s : State) : (macroStop s).history = s.history := rfl
@[simp] theorem macroStop_result (s : State) : (macroStop s).result = s.result := rfl
@[simp] theorem macroStop_input (s : State) : (macroStop s).input = s.input := rfl
@[simp] theorem macroStop_freeCount (s : State) : (macroStop s).freeCount = s.freeCount := rfl

/-! ## rbSet -/

@[simp] theorem rbSet_xMode (s : State) (i : BitVec 5) (v : Byte) : (rbSet s i v).xMode = s.xMode := rfl
@[simp] theorem rbSet_xBitpos (s : State) (i : BitVec 5) (v : Byte) : (rbSet s i v).xBitpos = s.xBitpos := rfl
@[simp] theorem rbSet_xRxshift (s : State) (i : BitVec 5) (v : Byte) : (rbSet s i v).xRxshift = s.xRxshift := rfl
@[simp] theorem rbSet_xRxpar (s : State) (i : BitVec 5) (v : Byte) : (rbSet s i v).xRxpar = s.xRxpar := rfl
@[simp] theorem rbSet_xTxbyte (s : State) (i : BitVec 5) (v : Byte) : (rbSet s i v).xTxbyte = s.xTxbyte := rfl
@[simp] theorem rbSet_xTxpar (s : State) (i : BitVec 5) (v : Byte) : (rbSet s i v).xTxpar = s.xTxpar := rfl
@[simp] theorem rbSet_xRecover (s : State) (i : BitVec 5) (v : Byte) : (rbSet s i v).xRecover = s.xRecover := rfl
@[simp] theorem rbSet_xAckst (s : State) (i : BitVec 5) (v : Byte) : (rbSet s i v).xAckst = s.xAckst := rfl
@[simp] theorem rbSet_xResend (s : State) (i : BitVec 5) (v : Byte) : (rbSet s i v).xResend = s.xResend := rfl
@[simp] theorem rbSet_xFerr (s : State) (i : BitVec 5) (v : Byte) : (rbSet s i v).xFerr = s.xFerr := rfl
@[simp] theorem rbSet_xPerr (s : State) (i : BitVec 5) (v : Byte) : (rbSet s i v).xPerr = s.xPerr := rfl
@[simp] theorem rbSet_xOvf (s : State) (i : BitVec 5) (v : Byte) : (rbSet s i v).xOvf = s.xOvf := rfl
@[simp] theorem rbSet_rb (s : State) (i : BitVec 5) (v : Byte) : (rbSet s i v).rb = Memory.write s.rb i.toNat v := rfl
@[simp] theorem rbSet_rbWr (s : State) (i : BitVec 5) (v : Byte) : (rbSet s i v).rbWr = s.rbWr := rfl
@[simp] theorem rbSet_rbRd (s : State) (i : BitVec 5) (v : Byte) : (rbSet s i v).rbRd = s.rbRd := rfl
@[simp] theorem rbSet_clkOut (s : State) (i : BitVec 5) (v : Byte) : (rbSet s i v).clkOut = s.clkOut := rfl
@[simp] theorem rbSet_dataOut (s : State) (i : BitVec 5) (v : Byte) : (rbSet s i v).dataOut = s.dataOut := rfl
@[simp] theorem rbSet_sState (s : State) (i : BitVec 5) (v : Byte) : (rbSet s i v).sState = s.sState := rfl
@[simp] theorem rbSet_sByte (s : State) (i : BitVec 5) (v : Byte) : (rbSet s i v).sByte = s.sByte := rfl
@[simp] theorem rbSet_sAttempt (s : State) (i : BitVec 5) (v : Byte) : (rbSet s i v).sAttempt = s.sAttempt := rfl
@[simp] theorem rbSet_sResult (s : State) (i : BitVec 5) (v : Byte) : (rbSet s i v).sResult = s.sResult := rfl
@[simp] theorem rbSet_kMode (s : State) (i : BitVec 5) (v : Byte) : (rbSet s i v).kMode = s.kMode := rfl
@[simp] theorem rbSet_kMods (s : State) (i : BitVec 5) (v : Byte) : (rbSet s i v).kMods = s.kMods := rfl
@[simp] theorem rbSet_kRel (s : State) (i : BitVec 5) (v : Byte) : (rbSet s i v).kRel = s.kRel := rfl
@[simp] theorem rbSet_kP2 (s : State) (i : BitVec 5) (v : Byte) : (rbSet s i v).kP2 = s.kP2 := rfl
@[simp] theorem rbSet_mMode (s : State) (i : BitVec 5) (v : Byte) : (rbSet s i v).mMode = s.mMode := rfl
@[simp] theorem rbSet_mCursor (s : State) (i : BitVec 5) (v : Byte) : (rbSet s i v).mCursor = s.mCursor := rfl
@[simp] theorem rbSet_mFill (s : State) (i : BitVec 5) (v : Byte) : (rbSet s i v).mFill = s.mFill := rfl
@[simp] theorem rbSet_mLast (s : State) (i : BitVec 5) (v : Byte) : (rbSet s i v).mLast = s.mLast := rfl
@[simp] theorem rbSet_mNext (s : State) (i : BitVec 5) (v : Byte) : (rbSet s i v).mNext = s.mNext := rfl
@[simp] theorem rbSet_mLedph (s : State) (i : BitVec 5) (v : Byte) : (rbSet s i v).mLedph = s.mLedph := rfl
@[simp] theorem rbSet_mLedt (s : State) (i : BitVec 5) (v : Byte) : (rbSet s i v).mLedt = s.mLedt := rfl
@[simp] theorem rbSet_steps (s : State) (i : BitVec 5) (v : Byte) : (rbSet s i v).steps = s.steps := rfl
@[simp] theorem rbSet_tMs (s : State) (i : BitVec 5) (v : Byte) : (rbSet s i v).tMs = s.tMs := rfl
@[simp] theorem rbSet_hLed (s : State) (i : BitVec 5) (v : Byte) : (rbSet s i v).hLed = s.hLed := rfl
@[simp] theorem rbSet_hDirty (s : State) (i : BitVec 5) (v : Byte) : (rbSet s i v).hDirty = s.hDirty := rfl
@[simp] theorem rbSet_mainPc (s : State) (i : BitVec 5) (v : Byte) : (rbSet s i v).mainPc = s.mainPc := rfl
@[simp] theorem rbSet_mainAt (s : State) (i : BitVec 5) (v : Byte) : (rbSet s i v).mainAt = s.mainAt := rfl
@[simp] theorem rbSet_sends (s : State) (i : BitVec 5) (v : Byte) : (rbSet s i v).sends = s.sends := rfl
@[simp] theorem rbSet_eKeys (s : State) (i : BitVec 5) (v : Byte) : (rbSet s i v).eKeys = s.eKeys := rfl
@[simp] theorem rbSet_ePrevmods (s : State) (i : BitVec 5) (v : Byte) : (rbSet s i v).ePrevmods = s.ePrevmods := rfl
@[simp] theorem rbSet_eDeadline (s : State) (i : BitVec 5) (v : Byte) : (rbSet s i v).eDeadline = s.eDeadline := rfl
@[simp] theorem rbSet_eArmed (s : State) (i : BitVec 5) (v : Byte) : (rbSet s i v).eArmed = s.eArmed := rfl
@[simp] theorem rbSet_history (s : State) (i : BitVec 5) (v : Byte) : (rbSet s i v).history = s.history := rfl
@[simp] theorem rbSet_result (s : State) (i : BitVec 5) (v : Byte) : (rbSet s i v).result = s.result := rfl
@[simp] theorem rbSet_input (s : State) (i : BitVec 5) (v : Byte) : (rbSet s i v).input = s.input := rfl
@[simp] theorem rbSet_freeCount (s : State) (i : BitVec 5) (v : Byte) : (rbSet s i v).freeCount = s.freeCount := rfl

/-! ## stepSet -/

@[simp] theorem stepSet_xMode (s : State) (j : Nat) (m : MacroStep) : (stepSet s j m).xMode = s.xMode := rfl
@[simp] theorem stepSet_xBitpos (s : State) (j : Nat) (m : MacroStep) : (stepSet s j m).xBitpos = s.xBitpos := rfl
@[simp] theorem stepSet_xRxshift (s : State) (j : Nat) (m : MacroStep) : (stepSet s j m).xRxshift = s.xRxshift := rfl
@[simp] theorem stepSet_xRxpar (s : State) (j : Nat) (m : MacroStep) : (stepSet s j m).xRxpar = s.xRxpar := rfl
@[simp] theorem stepSet_xTxbyte (s : State) (j : Nat) (m : MacroStep) : (stepSet s j m).xTxbyte = s.xTxbyte := rfl
@[simp] theorem stepSet_xTxpar (s : State) (j : Nat) (m : MacroStep) : (stepSet s j m).xTxpar = s.xTxpar := rfl
@[simp] theorem stepSet_xRecover (s : State) (j : Nat) (m : MacroStep) : (stepSet s j m).xRecover = s.xRecover := rfl
@[simp] theorem stepSet_xAckst (s : State) (j : Nat) (m : MacroStep) : (stepSet s j m).xAckst = s.xAckst := rfl
@[simp] theorem stepSet_xResend (s : State) (j : Nat) (m : MacroStep) : (stepSet s j m).xResend = s.xResend := rfl
@[simp] theorem stepSet_xFerr (s : State) (j : Nat) (m : MacroStep) : (stepSet s j m).xFerr = s.xFerr := rfl
@[simp] theorem stepSet_xPerr (s : State) (j : Nat) (m : MacroStep) : (stepSet s j m).xPerr = s.xPerr := rfl
@[simp] theorem stepSet_xOvf (s : State) (j : Nat) (m : MacroStep) : (stepSet s j m).xOvf = s.xOvf := rfl
@[simp] theorem stepSet_rb (s : State) (j : Nat) (m : MacroStep) : (stepSet s j m).rb = s.rb := rfl
@[simp] theorem stepSet_rbWr (s : State) (j : Nat) (m : MacroStep) : (stepSet s j m).rbWr = s.rbWr := rfl
@[simp] theorem stepSet_rbRd (s : State) (j : Nat) (m : MacroStep) : (stepSet s j m).rbRd = s.rbRd := rfl
@[simp] theorem stepSet_clkOut (s : State) (j : Nat) (m : MacroStep) : (stepSet s j m).clkOut = s.clkOut := rfl
@[simp] theorem stepSet_dataOut (s : State) (j : Nat) (m : MacroStep) : (stepSet s j m).dataOut = s.dataOut := rfl
@[simp] theorem stepSet_sState (s : State) (j : Nat) (m : MacroStep) : (stepSet s j m).sState = s.sState := rfl
@[simp] theorem stepSet_sByte (s : State) (j : Nat) (m : MacroStep) : (stepSet s j m).sByte = s.sByte := rfl
@[simp] theorem stepSet_sAttempt (s : State) (j : Nat) (m : MacroStep) : (stepSet s j m).sAttempt = s.sAttempt := rfl
@[simp] theorem stepSet_sResult (s : State) (j : Nat) (m : MacroStep) : (stepSet s j m).sResult = s.sResult := rfl
@[simp] theorem stepSet_kMode (s : State) (j : Nat) (m : MacroStep) : (stepSet s j m).kMode = s.kMode := rfl
@[simp] theorem stepSet_kMods (s : State) (j : Nat) (m : MacroStep) : (stepSet s j m).kMods = s.kMods := rfl
@[simp] theorem stepSet_kRel (s : State) (j : Nat) (m : MacroStep) : (stepSet s j m).kRel = s.kRel := rfl
@[simp] theorem stepSet_kP2 (s : State) (j : Nat) (m : MacroStep) : (stepSet s j m).kP2 = s.kP2 := rfl
@[simp] theorem stepSet_mMode (s : State) (j : Nat) (m : MacroStep) : (stepSet s j m).mMode = s.mMode := rfl
@[simp] theorem stepSet_mCursor (s : State) (j : Nat) (m : MacroStep) : (stepSet s j m).mCursor = s.mCursor := rfl
@[simp] theorem stepSet_mFill (s : State) (j : Nat) (m : MacroStep) : (stepSet s j m).mFill = s.mFill := rfl
@[simp] theorem stepSet_mLast (s : State) (j : Nat) (m : MacroStep) : (stepSet s j m).mLast = s.mLast := rfl
@[simp] theorem stepSet_mNext (s : State) (j : Nat) (m : MacroStep) : (stepSet s j m).mNext = s.mNext := rfl
@[simp] theorem stepSet_mLedph (s : State) (j : Nat) (m : MacroStep) : (stepSet s j m).mLedph = s.mLedph := rfl
@[simp] theorem stepSet_mLedt (s : State) (j : Nat) (m : MacroStep) : (stepSet s j m).mLedt = s.mLedt := rfl
@[simp] theorem stepSet_steps (s : State) (j : Nat) (m : MacroStep) : (stepSet s j m).steps = s.steps.setIfInBounds j m := rfl
@[simp] theorem stepSet_tMs (s : State) (j : Nat) (m : MacroStep) : (stepSet s j m).tMs = s.tMs := rfl
@[simp] theorem stepSet_hLed (s : State) (j : Nat) (m : MacroStep) : (stepSet s j m).hLed = s.hLed := rfl
@[simp] theorem stepSet_hDirty (s : State) (j : Nat) (m : MacroStep) : (stepSet s j m).hDirty = s.hDirty := rfl
@[simp] theorem stepSet_mainPc (s : State) (j : Nat) (m : MacroStep) : (stepSet s j m).mainPc = s.mainPc := rfl
@[simp] theorem stepSet_mainAt (s : State) (j : Nat) (m : MacroStep) : (stepSet s j m).mainAt = s.mainAt := rfl
@[simp] theorem stepSet_sends (s : State) (j : Nat) (m : MacroStep) : (stepSet s j m).sends = s.sends := rfl
@[simp] theorem stepSet_eKeys (s : State) (j : Nat) (m : MacroStep) : (stepSet s j m).eKeys = s.eKeys := rfl
@[simp] theorem stepSet_ePrevmods (s : State) (j : Nat) (m : MacroStep) : (stepSet s j m).ePrevmods = s.ePrevmods := rfl
@[simp] theorem stepSet_eDeadline (s : State) (j : Nat) (m : MacroStep) : (stepSet s j m).eDeadline = s.eDeadline := rfl
@[simp] theorem stepSet_eArmed (s : State) (j : Nat) (m : MacroStep) : (stepSet s j m).eArmed = s.eArmed := rfl
@[simp] theorem stepSet_history (s : State) (j : Nat) (m : MacroStep) : (stepSet s j m).history = s.history := rfl
@[simp] theorem stepSet_result (s : State) (j : Nat) (m : MacroStep) : (stepSet s j m).result = s.result := rfl
@[simp] theorem stepSet_input (s : State) (j : Nat) (m : MacroStep) : (stepSet s j m).input = s.input := rfl
@[simp] theorem stepSet_freeCount (s : State) (j : Nat) (m : MacroStep) : (stepSet s j m).freeCount = s.freeCount := rfl

end Sys2Proof.Machine
end

