-- ==== Sys2Proof/Laws/Memory.lean ====
section
/-! SUPPORT. The ring buffer's storage: a read after a write, and the canonical form, which every write keeps. -/

namespace Sys2Proof.Machine

@[simp] theorem Memory.read_nil (a : Nat) : Memory.read [] a = 0#8 := rfl

/-- Below the first listed index every slot reads 0x00. -/
theorem Memory.read_below {lo a : Nat} {m : Memory} (h : Memory.wfFrom lo m = true) (ha : a < lo) :
    Memory.read m a = 0#8 := by
  induction m generalizing lo with
  | nil => rfl
  | cons c m ih =>
    obtain ⟨b, w⟩ := c
    simp only [Memory.wfFrom, Bool.and_eq_true, decide_eq_true_eq] at h
    have hne : a ≠ b := by omega
    simp only [Memory.read, hne, if_false]
    exact ih h.2 (by omega)

/-- Raising the lower bound of the canonical form past indices it does not list. -/
theorem Memory.wfFrom_mono {lo lo' : Nat} {m : Memory} (h : Memory.wfFrom lo m = true) (hle : lo' ≤ lo) :
    Memory.wfFrom lo' m = true := by
  cases m with
  | nil => rfl
  | cons c m =>
    obtain ⟨b, w⟩ := c
    simp only [Memory.wfFrom, Bool.and_eq_true, decide_eq_true_eq] at h ⊢
    exact ⟨⟨⟨by omega, h.1.1.2⟩, h.1.2⟩, h.2⟩

/-- A write within the array keeps the canonical form. -/
theorem Memory.write_wfFrom {lo a : Nat} {v : Byte} {m : Memory} (h : Memory.wfFrom lo m = true)
    (hlo : lo ≤ a) (ha : a < Config.rbCap) : Memory.wfFrom lo (Memory.write m a v) = true := by
  induction m generalizing lo with
  | nil =>
    by_cases hv : v = 0#8
    · simp [Memory.write, hv, Memory.wfFrom]
    · simp [Memory.write, hv, Memory.wfFrom, hlo, ha]
  | cons c m ih =>
    obtain ⟨b, w⟩ := c
    have hb := h
    simp only [Memory.wfFrom, Bool.and_eq_true, decide_eq_true_eq] at hb
    obtain ⟨⟨⟨hlb, hbc⟩, hw⟩, hm⟩ := hb
    unfold Memory.write
    split
    · split
      · exact h
      · simp_all [Memory.wfFrom]
    · split
      · split
        · exact Memory.wfFrom_mono hm (by omega)
        · simp_all [Memory.wfFrom]
      · have := ih hm (by omega)
        simp_all [Memory.wfFrom]

/-- Every write to a slot keeps the canonical form. -/
theorem Memory.write_wf {m : Memory} (h : Memory.wf m = true) (i : BitVec 5) (v : Byte) :
    Memory.wf (Memory.write m i.toNat v) = true :=
  Memory.write_wfFrom h (Nat.zero_le _) i.isLt

/-- A read after a write to the same slot gives the value written. -/
theorem Memory.read_write_same {lo a : Nat} {v : Byte} {m : Memory} (h : Memory.wfFrom lo m = true) :
    Memory.read (Memory.write m a v) a = v := by
  induction m generalizing lo with
  | nil => by_cases hv : v = 0#8 <;> simp [Memory.write, Memory.read, hv]
  | cons c m ih =>
    obtain ⟨b, w⟩ := c
    have hb := h
    simp only [Memory.wfFrom, Bool.and_eq_true, decide_eq_true_eq] at hb
    unfold Memory.write
    split
    next hab =>
      split
      next hv =>
        have hne : a ≠ b := by omega
        simp only [Memory.read, hne, if_false, hv]
        exact Memory.read_below hb.2 (by omega)
      next => simp [Memory.read]
    next hab =>
      split
      next hab' =>
        split
        next hv => rw [hv]; exact Memory.read_below hb.2 (by omega)
        next => simp [Memory.read]
      next hne => simp only [Memory.read, hne, if_false]; exact ih hb.2

/-- A write leaves every other slot alone. -/
theorem Memory.read_write_other {a b : Nat} (v : Byte) (m : Memory) (hne : b ≠ a) :
    Memory.read (Memory.write m a v) b = Memory.read m b := by
  induction m with
  | nil => by_cases hv : v = 0#8 <;> simp [Memory.write, Memory.read, hv, hne]
  | cons c m ih =>
    obtain ⟨k, w⟩ := c
    unfold Memory.write
    split
    · split <;> simp [Memory.read, hne]
    · split
      next hk => subst hk; split <;> simp [Memory.read, hne]
      next => simp only [Memory.read]; rw [ih]

/-- RB[i] after `RB[i] <- v`. -/
theorem rbAt_rbSet_same {s : State} (h : Memory.wf s.rb = true) (i : BitVec 5) (v : Byte) :
    rbAt (rbSet s i v) i = v := Memory.read_write_same h

/-- RB[j] after `RB[i] <- v`, for another slot. -/
theorem rbAt_rbSet_other (s : State) {i j : BitVec 5} (v : Byte) (hne : j ≠ i) :
    rbAt (rbSet s i v) j = rbAt s j :=
  Memory.read_write_other v s.rb (fun e => hne (BitVec.eq_of_toNat_eq e))

/-- The storage right after reset is canonical. -/
theorem reset_rb_wf : Memory.wf State.reset.rb = true := rfl

end Sys2Proof.Machine
end

