-- ==== Sys2Proof/Laws/Ops.lean ====
section
/-! SUPPORT. What each shared operation can do, said once: the lemmas later proofs cite instead of unfolding. -/

namespace Sys2Proof.Machine

/-! ## Outcomes -/

/-- A guarded operation that completes had its precondition. -/
theorem guarded_next {p : Bool} {a : Agent} {o : Outcome} {t : State} :
    guarded p a o = .next t ↔ p = true ∧ o = .next t := by
  cases p <;> simp [guarded]

/-- With its precondition a guarded operation is the operation. -/
@[simp] theorem guarded_true (a : Agent) (o : Outcome) : guarded true a o = o := rfl

/-- Without its precondition the agent is stuck (00 R12). -/
@[simp] theorem guarded_false (a : Agent) (o : Outcome) : guarded false a o = .fault (.stuck a) := rfl

/-- A sequence completes exactly when its parts do. -/
theorem andThen_next {o : Outcome} {f : State → Outcome} {t : State} :
    andThen o f = .next t ↔ ∃ u, o = .next u ∧ f u = .next t := by
  cases o <;> simp [andThen]

@[simp] theorem andThen_of_next (s : State) (f : State → Outcome) : andThen (.next s) f = f s := rfl

@[simp] theorem andThen_of_fault (r : Fault) (f : State → Outcome) : andThen (.fault r) f = .fault r := rfl

@[simp] theorem andThen_of_refused (r : Refusal) (f : State → Outcome) : andThen (.refused r) f = .refused r := rfl

/-- Sequencing is associative. -/
theorem andThen_assoc (o : Outcome) (f g : State → Outcome) :
    andThen (andThen o f) g = andThen o (fun s => andThen (f s) g) := by
  cases o <;> rfl

/-! ## Bits -/

/-- The bits of a value after `v[k] <- d`. -/
theorem putBit_getLsbD {w : Nat} (v : BitVec w) (k : Nat) (d : Bool) (j : Nat) (hk : k < w) :
    (putBit v k d).getLsbD j = if j = k then d else v.getLsbD j := by
  have hk' : j = k → j < w := fun e => e ▸ hk
  by_cases h : j = k
  · subst h
    cases d <;> simp [putBit, hk]
  · cases d <;> simp [putBit, BitVec.getLsbD_twoPow, h, Ne.symm h]
    all_goals exact fun hj => BitVec.lt_of_getLsbD hj

/-! ## Ring buffer -/

/-- A push either fills the empty slot at RB_WR or drops the byte and counts it (41 R102). -/
theorem rbPush_cases (b : Byte) (s : State) :
    (rbAt s s.rbWr = 0#8 ∧ rbPush b s = { s with rb := Memory.write s.rb s.rbWr.toNat b, rbWr := s.rbWr + 1 }) ∨
    (rbAt s s.rbWr ≠ 0#8 ∧
      rbPush b s = { s with xOvf := s.xOvf + 1, history := s.history ++ [.error (.overflow b)] }) := by
  by_cases h : rbAt s s.rbWr = 0#8
  · exact .inl ⟨h, by simp [rbPush, h, rbSet]⟩
  · exact .inr ⟨h, by simp [rbPush, h, raise]⟩

/-- A pop either finds the buffer empty and changes nothing or empties the slot at RB_RD (42 R105). -/
theorem rbPop_cases (s : State) :
    (rbFront s = 0#8 ∧ rbPop s = s) ∨
    (rbFront s ≠ 0#8 ∧ rbPop s = { s with rb := Memory.write s.rb s.rbRd.toNat 0, rbRd := s.rbRd + 1 }) := by
  by_cases h : rbFront s = 0#8
  · exact .inl ⟨h, by simp [rbPop, h]⟩
  · exact .inr ⟨h, by simp [rbPop, h, rbSet]⟩

/-- A push touches only the buffer, its write index, the overflow counter and the output (41 R102). -/
theorem rbPush_frame (b : Byte) (s : State) :
    rbPush b s = { s with rb := (rbPush b s).rb, rbWr := (rbPush b s).rbWr, xOvf := (rbPush b s).xOvf,
                          history := (rbPush b s).history } := by
  unfold rbPush
  split <;> rfl

/-- A pop touches only the buffer and its read index (42 R105). -/
theorem rbPop_frame (s : State) : rbPop s = { s with rb := (rbPop s).rb, rbRd := (rbPop s).rbRd } := by
  unfold rbPop
  split <;> rfl

/-! ## Edges -/

/-- Frame completion touches only the parity counter, the ACK state, the resend request, the buffer with its write index and
overflow counter, and the output (41 R101). -/
theorem frameDone_frame (b : Byte) (p : Bool) (s : State) :
    frameDone b p s =
      { s with xPerr := (frameDone b p s).xPerr, xAckst := (frameDone b p s).xAckst,
               xResend := (frameDone b p s).xResend, rb := (frameDone b p s).rb, rbWr := (frameDone b p s).rbWr,
               xOvf := (frameDone b p s).xOvf, history := (frameDone b p s).history } := by
  unfold frameDone
  repeat' split
  all_goals first | rfl | (unfold rbPush; split <;> rfl)

/-- What frame completion can do (41 R101). -/
theorem frameDone_cases (b : Byte) (p : Bool) (s : State) :
    (p ≠ parity b ∧ s.xAckst = .waiting ∧ frameDone b p s =
      { s with xPerr := s.xPerr + 1, xAckst := .nacked, history := s.history ++ [.error (.nack b)] }) ∨
    (p ≠ parity b ∧ s.xAckst ≠ .waiting ∧ frameDone b p s =
      { s with xPerr := s.xPerr + 1, xResend := true, history := s.history ++ [.error (.parity b)] }) ∨
    (p = parity b ∧ b = Config.ack ∧ s.xAckst = .waiting ∧ frameDone b p s = { s with xAckst := .acked }) ∨
    (p = parity b ∧ b = 0#8 ∧ frameDone b p s = { s with history := s.history ++ [.error .zeroByte] }) ∨
    (p = parity b ∧ b ≠ 0#8 ∧ ¬(b = Config.ack ∧ s.xAckst = .waiting) ∧ frameDone b p s = rbPush b s) := by
  by_cases hp : p = parity b
  · by_cases hack : b = Config.ack ∧ s.xAckst = .waiting
    · exact .inr (.inr (.inl ⟨hp, hack.1, hack.2, by unfold frameDone; rw [if_neg (by simpa using hp), if_pos hack]⟩))
    · by_cases hz : b = 0#8
      · refine .inr (.inr (.inr (.inl ⟨hp, hz, ?_⟩)))
        unfold frameDone
        rw [if_neg (by simpa using hp), if_neg hack, if_pos hz]
        rfl
      · refine .inr (.inr (.inr (.inr ⟨hp, hz, hack, ?_⟩)))
        unfold frameDone
        rw [if_neg (by simpa using hp), if_neg hack, if_neg hz]
  · by_cases hw : s.xAckst = .waiting
    · refine .inl ⟨hp, hw, ?_⟩
      unfold frameDone
      rw [if_pos hp, if_pos hw]
      rfl
    · refine .inr (.inl ⟨hp, hw, ?_⟩)
      unfold frameDone
      rw [if_pos hp, if_neg hw]
      rfl

/-- What an edge in receive mode can do (41 R93). -/
theorem rxEdge_cases {d : Bool} {s t : State} (h : rxEdge d s = .next t) :
    (s.xBitpos = 0#4 ∧ t = rxStart d s) ∨
    (1 ≤ s.xBitpos.toNat ∧ s.xBitpos.toNat ≤ 8 ∧ t = rxData d s) ∨
    (s.xBitpos = 9#4 ∧ t = rxParity d s) ∨
    (s.xBitpos = 10#4 ∧ t = rxStop d s) := by
  unfold rxEdge at h
  split at h
  next h0 => cases h; exact .inl ⟨h0, rfl⟩
  next h0 =>
    split at h
    next h8 =>
      cases h
      refine .inr (.inl ⟨?_, h8, rfl⟩)
      have : s.xBitpos.toNat ≠ 0 := fun e => h0 (BitVec.eq_of_toNat_eq e)
      omega
    next =>
      split at h
      next h9 => cases h; exact .inr (.inr (.inl ⟨h9, rfl⟩))
      next =>
        split at h
        next h10 => cases h; exact .inr (.inr (.inr ⟨h10, rfl⟩))
        next => cases h

/-- What an edge can do (41 R93): it is lost, transmits a position, or receives one. -/
theorem edgeOp_cases {d : Bool} {s t : State} (h : edgeOp d s = .next t) :
    s.clkOut = true ∧
    ((s.xRecover = true ∧ t = s) ∨
     (s.xRecover = false ∧ s.xMode = .tx ∧ t = txEdge s) ∨
     (s.xRecover = false ∧ s.xMode = .rx ∧ rxEdge d s = .next t)) := by
  obtain ⟨hc, h⟩ := guarded_next.mp h
  refine ⟨hc, ?_⟩
  split at h
  next hr => cases h; exact .inl ⟨hr, rfl⟩
  next hr =>
    have hr' : s.xRecover = false := by simpa using hr
    split at h
    next hm => cases h; exact .inr (.inl ⟨hr', hm, rfl⟩)
    next hm =>
      refine .inr (.inr ⟨hr', ?_, h⟩)
      cases hx : s.xMode with
      | rx => rfl
      | tx => exact absurd hx hm

/-- An edge in transmit mode touches only DATA_OUT, X_MODE and X_BITPOS (42 R111). -/
theorem txEdge_frame (s : State) :
    txEdge s = { s with dataOut := (txEdge s).dataOut, xMode := (txEdge s).xMode, xBitpos := (txEdge s).xBitpos } := by
  unfold txEdge
  repeat' split
  all_goals rfl

/-- An edge never moves the clock line or the send procedure (42 R116). -/
theorem edgeOp_send {d : Bool} {s t : State} (h : edgeOp d s = .next t) :
    t.clkOut = s.clkOut ∧ t.sState = s.sState ∧ t.sByte = s.sByte ∧ t.sAttempt = s.sAttempt ∧ t.sResult = s.sResult := by
  obtain ⟨_, h | h | h⟩ := edgeOp_cases h
  · obtain ⟨_, rfl⟩ := h; simp
  · obtain ⟨_, _, rfl⟩ := h
    rw [txEdge_frame]; simp
  · obtain ⟨_, _, h⟩ := h
    obtain ⟨_, rfl⟩ | ⟨_, _, rfl⟩ | ⟨_, rfl⟩ | ⟨_, rfl⟩ := rxEdge_cases h
    · unfold rxStart framingError; split <;> simp
    · simp [rxData]
    · simp [rxParity]
    · unfold rxStop
      split
      · rw [frameDone_frame]; simp
      · simp [framingError]

/-- A run of edges is its first edge and the rest. -/
theorem runEdges_cons (d : Bool) (ds : List Bool) (s : State) :
    runEdges (d :: ds) s = andThen (edgeOp d s) (runEdges ds) := rfl

/-- A run of edges in two parts. -/
theorem runEdges_append (ds es : List Bool) (s : State) :
    runEdges (ds ++ es) s = andThen (runEdges ds s) (runEdges es) := by
  induction ds generalizing s with
  | nil => rfl
  | cons d ds ih =>
    simp only [List.cons_append, runEdges_cons, andThen_assoc]
    congr 1
    funext u
    exact ih u

/-- The eleven levels of a frame. -/
theorem frameLevels_length (st : Bool) (d : Byte) (p t : Bool) : (frameLevels st d p t).length = 11 := rfl

/-- An edge touches none but the receiver's and transmitter's elements, the buffer with its write index and overflow counter,
DATA_OUT and the output (41 R93, 42 R111). -/
theorem edgeOp_frame {d : Bool} {s t : State} (h : edgeOp d s = .next t) :
    t = { s with xMode := t.xMode, xBitpos := t.xBitpos, xRxshift := t.xRxshift, xRxpar := t.xRxpar,
                 xRecover := t.xRecover, xAckst := t.xAckst, xResend := t.xResend, xFerr := t.xFerr, xPerr := t.xPerr,
                 xOvf := t.xOvf, rb := t.rb, rbWr := t.rbWr, dataOut := t.dataOut, history := t.history } := by
  obtain ⟨_, h | h | h⟩ := edgeOp_cases h
  · obtain ⟨_, rfl⟩ := h; rfl
  · obtain ⟨_, _, rfl⟩ := h; rw [txEdge_frame]
  · obtain ⟨_, _, h⟩ := h
    obtain ⟨_, rfl⟩ | ⟨_, _, rfl⟩ | ⟨_, rfl⟩ | ⟨_, rfl⟩ := rxEdge_cases h
    · unfold rxStart framingError raise; split <;> rfl
    · rfl
    · rfl
    · unfold rxStop
      split
      · rw [frameDone_frame]
      · rfl

/-- A run of edges touches only what an edge does. -/
theorem runEdges_frame {ds : List Bool} {s t : State} (h : runEdges ds s = .next t) :
    t = { s with xMode := t.xMode, xBitpos := t.xBitpos, xRxshift := t.xRxshift, xRxpar := t.xRxpar,
                 xRecover := t.xRecover, xAckst := t.xAckst, xResend := t.xResend, xFerr := t.xFerr, xPerr := t.xPerr,
                 xOvf := t.xOvf, rb := t.rb, rbWr := t.rbWr, dataOut := t.dataOut, history := t.history } := by
  induction ds generalizing s with
  | nil => simp only [runEdges, Host.Outcome.next.injEq] at h; subst h; rfl
  | cons d ds ih =>
    obtain ⟨u, hu, ht⟩ := andThen_next.mp h
    rw [ih ht, edgeOp_frame hu]

/-- An edge in receive mode, armed, is received (41 R93). -/
theorem edgeOp_rx {d : Bool} {s : State} (h1 : s.clkOut = true) (h2 : s.xRecover = false) (h3 : s.xMode = .rx) :
    edgeOp d s = rxEdge d s := by simp [edgeOp, h1, h2, h3]

/-- The edge of data bit k (41 R96). -/
theorem edgeOp_dataBit (s : State) (d : Bool) (v : Byte) (k : Nat) (h1 : s.clkOut = true) (h2 : s.xRecover = false)
    (h3 : s.xMode = .rx) (h : k < 8) :
    edgeOp d { s with xRxshift := v, xBitpos := BitVec.ofNat 4 (k + 1) } =
      .next { s with xRxshift := putBit v k d, xBitpos := BitVec.ofNat 4 (k + 2) } := by
  have e : (BitVec.ofNat 4 (k + 1)).toNat = k + 1 := by simp; omega
  have e0 : BitVec.ofNat 4 (k + 1) ≠ 0#4 := by intro h; rw [h] at e; simp at e
  have e1 : BitVec.ofNat 4 (k + 1) + 1 = BitVec.ofNat 4 (k + 2) := by apply BitVec.eq_of_toNat_eq; simp
  refine Eq.trans (edgeOp_rx h1 h2 h3) ?_
  unfold rxEdge
  rw [if_neg e0, if_pos (by simp only; omega)]
  simp only [rxData, e, Nat.add_sub_cancel, e1]

/-- The eight data bits of a byte, set one by one, are the byte. -/
theorem putBit_all (d : Byte) :
    putBit (putBit (putBit (putBit (putBit (putBit (putBit (putBit 0#8 0 (d.getLsbD 0)) 1 (d.getLsbD 1)) 2 (d.getLsbD 2))
      3 (d.getLsbD 3)) 4 (d.getLsbD 4)) 5 (d.getLsbD 5)) 6 (d.getLsbD 6)) 7 (d.getLsbD 7) = d := by
  revert d; decide

/-- The eleven edges of a frame with a good start bit, from the gap between frames, are its completion, or a framing error at
its stop bit (41 R95 to R98). -/
theorem runEdges_frameLevels (d : Byte) (p t : Bool) (s : State) (h1 : s.clkOut = true) (h2 : s.xRecover = false)
    (h3 : s.xMode = .rx) (h4 : s.xBitpos = 0#4) :
    runEdges (frameLevels false d p t) s =
      .next (if t then frameDone d p { s with xRxshift := d, xRxpar := p, xBitpos := 0 }
             else framingError { s with xRxshift := d, xRxpar := p, xBitpos := 0 }) := by
  change runEdges [false, d.getLsbD 0, d.getLsbD 1, d.getLsbD 2, d.getLsbD 3, d.getLsbD 4, d.getLsbD 5, d.getLsbD 6,
    d.getLsbD 7, p, t] s = _
  have e0 : edgeOp false s = .next { s with xRxshift := 0#8, xBitpos := BitVec.ofNat 4 (0 + 1) } := by
    rw [edgeOp_rx h1 h2 h3]; simp [rxEdge, h4, rxStart]
  rw [runEdges_cons, e0, andThen_of_next]
  rw [runEdges_cons, edgeOp_dataBit s _ _ 0 h1 h2 h3 (by omega), andThen_of_next]
  rw [runEdges_cons, edgeOp_dataBit s _ _ 1 h1 h2 h3 (by omega), andThen_of_next]
  rw [runEdges_cons, edgeOp_dataBit s _ _ 2 h1 h2 h3 (by omega), andThen_of_next]
  rw [runEdges_cons, edgeOp_dataBit s _ _ 3 h1 h2 h3 (by omega), andThen_of_next]
  rw [runEdges_cons, edgeOp_dataBit s _ _ 4 h1 h2 h3 (by omega), andThen_of_next]
  rw [runEdges_cons, edgeOp_dataBit s _ _ 5 h1 h2 h3 (by omega), andThen_of_next]
  rw [runEdges_cons, edgeOp_dataBit s _ _ 6 h1 h2 h3 (by omega), andThen_of_next]
  rw [runEdges_cons, edgeOp_dataBit s _ _ 7 h1 h2 h3 (by omega), andThen_of_next]
  simp only [putBit_all]
  have e9 : edgeOp p { s with xRxshift := d, xBitpos := BitVec.ofNat 4 (7 + 2) } =
      .next { s with xRxshift := d, xRxpar := p, xBitpos := 10#4 } := Eq.trans (edgeOp_rx h1 h2 h3) rfl
  have e10 : edgeOp t { s with xRxshift := d, xRxpar := p, xBitpos := 10#4 } =
      .next (if t then frameDone d p { s with xRxshift := d, xRxpar := p, xBitpos := 0 }
             else framingError { s with xRxshift := d, xRxpar := p, xBitpos := 0 }) := by
    refine Eq.trans (edgeOp_rx h1 h2 h3) ?_
    cases t <;> rfl
  rw [runEdges_cons, e9, andThen_of_next, runEdges_cons, e10, andThen_of_next]
  rfl

/-- During recovery a run of edges is lost (41 R94). -/
theorem runEdges_recovering (ds : List Bool) (s : State) (h1 : s.clkOut = true) (h2 : s.xRecover = true) :
    runEdges ds s = .next s := by
  induction ds with
  | nil => rfl
  | cons d ds ih => simp [runEdges_cons, edgeOp, h1, h2, ih]

/-! ## Send procedure -/

/-- A failed attempt is retried or ends the send (42 R114). -/
theorem attemptFailed_cases (s : State) :
    (s.sAttempt.toNat < Config.sendAttempts ∧
      attemptFailed s = { s with sAttempt := s.sAttempt + 1, sState := .waitIdle }) ∨
    (Config.sendAttempts ≤ s.sAttempt.toNat ∧
      attemptFailed s = { s with sState := .idle, sResult := .failed,
                                 history := s.history ++ [.error (.sendFailed s.sByte)] }) := by
  by_cases h : s.sAttempt.toNat < Config.sendAttempts
  · exact .inl ⟨h, by simp [attemptFailed, h]⟩
  · exact .inr ⟨Nat.not_lt.mp h, by simp [attemptFailed, h, raise]⟩

/-- The polls of the wait for 0xAA touch only the buffer with its read index and the main position (42 R120, R121). -/
theorem batWait_frame (n : Nat) (s : State) :
    batWait n s = { s with rb := (batWait n s).rb, rbRd := (batWait n s).rbRd, mainPc := (batWait n s).mainPc,
                           mainAt := (batWait n s).mainAt } := by
  induction n generalizing s with
  | zero => rfl
  | succ n ih =>
    unfold batWait
    split
    · rw [ih]
      unfold batPollOnce goto rbPop
      repeat' split
      all_goals rfl
    · rfl

/-! ## Macro store -/

/-- A step read back from where it was stored. -/
theorem stepAt_stepSet_same (s : State) {j : Nat} (m : MacroStep) (h : j < Config.macroCap) :
    stepAt (stepSet s j m) j = some m := by
  have h' : j < 40 := h
  simp [stepAt, stepSet, h']

/-- Storing a step leaves every other step alone. -/
theorem stepAt_stepSet_other (s : State) {j k : Nat} (m : MacroStep) (h : k ≠ j) :
    stepAt (stepSet s j m) k = stepAt s k := by
  simp [stepAt, stepSet, Ne.symm h]

/-- What storing a report does where the store has room after it (44 R150). -/
theorem fullCheck_stepAppend_room (m : MacroStep) (s : State) (h : (s.mFill + 1).toNat ≠ Config.macroCap) :
    fullCheck (stepAppend m s) =
      { s with steps := s.steps.setIfInBounds s.mFill.toNat m, mFill := s.mFill + 1, mCursor := s.mFill + 1,
               mLast := s.tMs } := by
  have e : (stepAppend m s).mFill = s.mFill + 1 := rfl
  unfold fullCheck
  rw [e, if_neg h]
  simp only [stepAppend, stepSet]

/-- What storing the report that fills the store does (44 R150, R157). -/
theorem fullCheck_stepAppend_full (m : MacroStep) (s : State) (h : (s.mFill + 1).toNat = Config.macroCap) :
    fullCheck (stepAppend m s) =
      { s with steps := s.steps.setIfInBounds s.mFill.toNat m, mFill := s.mFill + 1, mCursor := s.mFill + 1,
               mLast := s.tMs, mMode := .stopped, hDirty := true, history := s.history ++ [.error .macroFull] } := by
  have e : (stepAppend m s).mFill = s.mFill + 1 := rfl
  unfold fullCheck
  rw [e, if_pos h]
  simp only [raise, macroStop, stepAppend, stepSet]

/-! ## Decoder -/

/-- A row of the byte map completes exactly under its byte class and selector. -/
theorem scanRowOp_next {i : Instr} {s t u : State} :
    scanRowOp i s t = .next u ↔ (i.wf = true ∧ selects i s.kMode s.kP2 = true) ∧ t = u := by
  simp [scanRowOp, guarded_next]

/-! ## Block reset -/

/-- What a block reset keeps: the outputs recorded and the turns to come (70 R188). -/
theorem blockReset_kept (s : State) :
    (blockReset s).history = s.history ∧ (blockReset s).result = s.result ∧ (blockReset s).input = s.input := by
  simp [blockReset]

/-! ## Main position -/

/-- MAIN_PC's settling touches only the main position. -/
theorem settle_frame (s : State) : settle s = { s with mainPc := (settle s).mainPc, mainAt := (settle s).mainAt } := by
  unfold settle
  split
  · rfl
  · rfl

end Sys2Proof.Machine
end

