-- ==== Sys2Proof/Laws/PerInstr.lean ====
section
/-! SUPPORT. A statement for every instruction, one lemma per constructor: the encoder's word has its opcode-table row's fixed
bits. -/

namespace Sys2Proof.Laws

/-- The mask and match of each row, copied from spec/opcode_table.json. -/
def tableRow : Instr → BitVec 16 × BitVec 16
  | .edge _ => (0xFFFE, 0x0)
  | .recoveryDone => (0xFFFF, 0x800)
  | .tick => (0xFFFF, 0x1000)
  | .hostLed _ => (0xFF00, 0x1800)
  | .settleDone => (0xFFFF, 0x2000)
  | .idleTimeout => (0xFFFF, 0x2800)
  | .setupDone => (0xFFFF, 0x3000)
  | .ackTimeout => (0xFFFF, 0x3800)
  | .batTimeout => (0xFFFF, 0x4000)
  | .pop => (0xFFFF, 0x4800)
  | .send _ => (0xFF00, 0x5000)
  | .ackPoll => (0xFFFF, 0x5800)
  | .resendService => (0xFFFF, 0x6000)
  | .decode _ => (0xFF00, 0x6800)
  | .cmdEnter => (0xFFFF, 0x7000)
  | .cmdLeave => (0xFFFF, 0x7800)
  | .modsClear => (0xFFFF, 0x8000)
  | .recHotkey => (0xFFFF, 0x8800)
  | .playHotkey => (0xFFFF, 0x9000)
  | .otherPress => (0xFFFF, 0x9800)
  | .report _ _ => (0xFFF0, 0xA000)
  | .service => (0xFFFF, 0xA800)
  | .ledApply => (0xFFFF, 0xB000)
  | .batPoll => (0xFFFF, 0xB800)
  | .reset => (0xFFFF, 0xC000)
  | .parity _ => (0xFF00, 0xC800)
  | .reserved1A1B _ => (0xF000, 0xD000)
  | .reserved1C1F _ => (0xE000, 0xE000)
  | .frameRx _ _ => (0x401, 0x400)
  | .frameTx _ _ _ => (0x401, 0x400)
  | .cmdReset => (0xFF, 0xFF)
  | .cmdScanset2 => (0xFFFF, 0xF002)
  | .cmdSetLeds _ => (0xFF00, 0xED00)
  | .cmdResend => (0xFF, 0xFE)
  | .respAck => (0xFF, 0xFA)
  | .respBatOk => (0xFF, 0xAA)
  | .respZero => (0xFF, 0x0)
  | .scanZero => (0xFF, 0x0)
  | .scanBreakF0 => (0xFF, 0xF0)
  | .scanExtE0 => (0xFF, 0xE0)
  | .scanPauseE1 => (0xFF, 0xE1)
  | .scanExt2Prefix _ => (0xFE, 0xE0)
  | .scanExt2Byte14 => (0xFF, 0x14)
  | .scanExt2Byte77 => (0xFF, 0x77)
  | .scanExt2Other _ => (0x0, 0x0)
  | .scanExtDiscard => (0xFF, 0x12)
  | .scanExtDiscard59 => (0xFF, 0x59)
  | .scanExtMod _ => (0x0, 0x0)
  | .scanExtPlain _ => (0x0, 0x0)
  | .scanKeyMod _ => (0x0, 0x0)
  | .scanKeyPlain _ => (0x0, 0x0)
  | .scanCommand _ => (0x0, 0x0)

namespace MatchesRow

/-- The word of a well-formed instruction, masked, is its row's match. -/
def Statement (i : Instr) : Prop := i.wf = true → wordOf i &&& (tableRow i).1 = (tableRow i).2

theorem edge (d : Bool) : Statement (.edge d) := fun _ => by revert d; decide
theorem recoveryDone : Statement .recoveryDone := fun _ => by decide
theorem tick : Statement .tick := fun _ => by decide
theorem hostLed (b : Byte) : Statement (.hostLed b) := fun _ => (opWord_masked _ b).trans rfl
theorem settleDone : Statement .settleDone := fun _ => by decide
theorem idleTimeout : Statement .idleTimeout := fun _ => by decide
theorem setupDone : Statement .setupDone := fun _ => by decide
theorem ackTimeout : Statement .ackTimeout := fun _ => by decide
theorem batTimeout : Statement .batTimeout := fun _ => by decide
theorem pop : Statement .pop := fun _ => by decide
theorem send (b : Byte) : Statement (.send b) := fun _ => (opWord_masked _ b).trans rfl
theorem ackPoll : Statement .ackPoll := fun _ => by decide
theorem resendService : Statement .resendService := fun _ => by decide
theorem decode (b : Byte) : Statement (.decode b) := fun _ => (opWord_masked _ b).trans rfl
theorem cmdEnter : Statement .cmdEnter := fun _ => by decide
theorem cmdLeave : Statement .cmdLeave := fun _ => by decide
theorem modsClear : Statement .modsClear := fun _ => by decide
theorem recHotkey : Statement .recHotkey := fun _ => by decide
theorem playHotkey : Statement .playHotkey := fun _ => by decide
theorem otherPress : Statement .otherPress := fun _ => by decide
theorem report (len : BitVec 4) (rbus : Bytes8) : Statement (.report len rbus) := fun _ => reportWord_masked len
theorem service : Statement .service := fun _ => by decide
theorem ledApply : Statement .ledApply := fun _ => by decide
theorem batPoll : Statement .batPoll := fun _ => by decide
theorem reset : Statement .reset := fun _ => by decide
theorem parity (b : Byte) : Statement (.parity b) := fun _ => (opWord_masked _ b).trans rfl
theorem reserved1A1B (x : BitVec 12) : Statement (.reserved1A1B x) := fun _ => reserved1A1BWord_masked x
theorem reserved1C1F (x : BitVec 13) : Statement (.reserved1C1F x) := fun _ => reserved1C1FWord_masked x
theorem frameRx (d : Byte) (p : Bool) : Statement (.frameRx d p) := fun _ => frameRxWord_masked d p
theorem frameTx (d : Byte) (p : Bool) (a : Bool) : Statement (.frameTx d p a) := fun _ => frameTxWord_masked d p a
theorem cmdReset : Statement .cmdReset := fun _ => by decide
theorem cmdScanset2 : Statement .cmdScanset2 := fun _ => by decide
theorem cmdSetLeds (v : Byte) : Statement (.cmdSetLeds v) := fun _ => cmdWord_masked v
theorem cmdResend : Statement .cmdResend := fun _ => by decide
theorem respAck : Statement .respAck := fun _ => by decide
theorem respBatOk : Statement .respBatOk := fun _ => by decide
theorem respZero : Statement .respZero := fun _ => by decide
theorem scanZero : Statement .scanZero := fun _ => by decide
theorem scanBreakF0 : Statement .scanBreakF0 := fun _ => by decide
theorem scanExtE0 : Statement .scanExtE0 := fun _ => by decide
theorem scanPauseE1 : Statement .scanPauseE1 := fun _ => by decide
theorem scanExt2Prefix (x : Bool) : Statement (.scanExt2Prefix x) := fun _ => by revert x; decide
theorem scanExt2Byte14 : Statement .scanExt2Byte14 := fun _ => by decide
theorem scanExt2Byte77 : Statement .scanExt2Byte77 := fun _ => by decide
theorem scanExt2Other (b : Byte) : Statement (.scanExt2Other b) := fun _ => BitVec.and_zero
theorem scanExtDiscard : Statement .scanExtDiscard := fun _ => by decide
theorem scanExtDiscard59 : Statement .scanExtDiscard59 := fun _ => by decide
theorem scanExtMod (b : Byte) : Statement (.scanExtMod b) := fun _ => BitVec.and_zero
theorem scanExtPlain (b : Byte) : Statement (.scanExtPlain b) := fun _ => BitVec.and_zero
theorem scanKeyMod (b : Byte) : Statement (.scanKeyMod b) := fun _ => BitVec.and_zero
theorem scanKeyPlain (b : Byte) : Statement (.scanKeyPlain b) := fun _ => BitVec.and_zero
theorem scanCommand (b : Byte) : Statement (.scanCommand b) := fun _ => BitVec.and_zero

end MatchesRow

end Sys2Proof.Laws
end

