-- ==== Sys2Proof/Machine/Schedule.lean ====
section
/-! DEFINITION. Runs of the running system: an endless schedule gives every step its turn, so that ticks and oracle events never
run out, and the fairness that 60_exceptions R181 assumes of such a run. -/

namespace Sys2Proof.Machine

/-- Whose turn each step is, for ever (20 R69). It is no part of State: a claim quantifies over it. -/
abbrev Schedule := Nat → Turn

/-- One more turn is to be taken, after those already waiting. -/
def enqueue (t : Turn) (s : State) : State := { s with input := s.input ++ [t] }

/-- A step of the running system: the schedule's turn comes in, and the machine takes its next turn. -/
def scheduledStep (t : Turn) (s : State) : Outcome := step (enqueue t s)

/-- The run of a schedule from s: its first n steps, stopping at the first stop. -/
def runFor (σ : Schedule) (s : State) : Nat → Outcome
  | 0 => .next s
  | n + 1 => andThen (runFor σ s n) (scheduledStep (σ n))

/-- The condition P, wherever the run meets it, ends later. -/
def Ends (σ : Schedule) (s : State) (P : State → Prop) : Prop :=
  ∀ n t, runFor σ s n = .next t → P t → ∃ m u, n ≤ m ∧ runFor σ s m = .next u ∧ ¬ P u

/-- The fairness assumption (60 R181), clause by clause, for a run in which no agent is stuck (00 R12). A reset ends every wait
too. No other liveness is in it: the device and the host may never act. -/
structure Fair (σ : Schedule) (s : State) : Prop where
  /-- external agents offer operations only where their preconditions hold -/
  goesOn : ∀ n, ∃ t, runFor σ s n = .next t
  /-- (a) TICK occurs infinitely often -/
  ticks : ∀ n, ∃ m r, n ≤ m ∧ σ m = .offer ⟨.op16, 0x1000, r⟩
  /-- (b) the idle wait ends, by SETTLE_DONE or IDLE_TIMEOUT -/
  idleWaitEnds : Ends σ s fun t => t.sState = .waitIdle
  /-- (b) the inhibit ends, by SETUP_DONE -/
  inhibitEnds : Ends σ s fun t => t.sState = .inhibit
  /-- (b) the wait for an acknowledgment ends, by a reply or by ACK_TIMEOUT -/
  ackWaitEnds : Ends σ s fun t => t.sState = .waitAck ∧ t.xAckst = .waiting
  /-- (c) the framing recovery ends, by RECOVERY_DONE -/
  recoveryEnds : Ends σ s fun t => t.xRecover = true
  /-- (d) the wait for 0xAA ends, by 0xAA or BAT_TIMEOUT -/
  batWaitEnds : Ends σ s fun t => t.mainPc = .bootWaitBat
  /-- (e) the main context takes a step infinitely often -/
  mainActs : ∀ n, ∃ m, n ≤ m ∧ σ m = .main

end Sys2Proof.Machine
end

