-- ==== Sys2Proof/Laws/Schedule.lean ====
section
/-! SUPPORT. Runs of a schedule, and a fair one: the assumption of 60_exceptions R181 can be met. -/

namespace Sys2Proof.Machine

@[simp] theorem runFor_zero (σ : Schedule) (s : State) : runFor σ s 0 = .next s := rfl

theorem runFor_succ (σ : Schedule) (s : State) (n : Nat) :
    runFor σ s (n + 1) = andThen (runFor σ s n) (scheduledStep (σ n)) := rfl

/-- A run that goes on after n steps has gone on until then. -/
theorem runFor_le {σ : Schedule} {s t : State} {n m : Nat} (h : n ≤ m) (hm : runFor σ s m = .next t) :
    ∃ u, runFor σ s n = .next u := by
  induction m generalizing t with
  | zero => exact ⟨t, by rw [Nat.le_zero.mp h]; exact hm⟩
  | succ m ih =>
    by_cases e : n = m + 1
    · exact ⟨t, e ▸ hm⟩
    · obtain ⟨u, hu, _⟩ := andThen_next.mp hm
      exact ih (by omega) hu

/-- With nothing waiting, the schedule's turn is the one taken. -/
theorem scheduledStep_main {s : State} (h : s.input = []) : scheduledStep .main s = mainTurn s := by
  obtain ⟨⟩ := s
  cases h
  rfl

theorem scheduledStep_offer {s : State} (h : s.input = []) (o : Offer) : scheduledStep (.offer o) s = offerTurn o s := by
  obtain ⟨⟩ := s
  cases h
  rfl

/-! ## A fair run -/

/-- The schedule of a keyboard that never answers: the boot's CMD_ENTER and SEND, a tick, the time limit of the idle wait, and that
of the wait for 0xAA, whose reset starts the boot over. -/
def silentKeyboard : Schedule := fun n =>
  match n % 5 with
  | 2 => .offer ⟨.op16, 0x1000, Bytes8.zero⟩
  | 3 => .offer ⟨.op16, 0x2800, Bytes8.zero⟩
  | 4 => .offer ⟨.op16, 0x4000, Bytes8.zero⟩
  | _ => .main

theorem silentKeyboard_period (n k : Nat) : silentKeyboard (5 * n + k) = silentKeyboard k := by
  unfold silentKeyboard
  rw [show (5 * n + k) % 5 = k % 5 by omega]

/-- Where the boot begins, with nothing waiting and no wait under way. -/
abbrev BootBegins (s : State) : Prop :=
  s.input = [] ∧ s.mainPc = .bootEnter ∧ s.mainAt = .start ∧ s.sends = [] ∧ s.sState = .idle ∧ s.xRecover = false

/-- One round of the silent keyboard. -/
def silentRound (s : State) : Outcome :=
  andThen (andThen (andThen (andThen (andThen (.next s) (scheduledStep (silentKeyboard 0)))
    (scheduledStep (silentKeyboard 1))) (scheduledStep (silentKeyboard 2))) (scheduledStep (silentKeyboard 3)))
    (scheduledStep (silentKeyboard 4))

/-- A round leads from the beginning of the boot to the beginning of the boot. -/
theorem silentRound_next {s : State} (h : BootBegins s) : ∃ t, silentRound s = .next t ∧ BootBegins t := by
  obtain ⟨h1, h2, h3, h4, h5, h6⟩ := h
  let a : State := { s with kMode := .command, mainPc := .bootReset }
  let b : State := { a with sByte := 0xFF, sAttempt := 1, sResult := .none, sState := .waitIdle, mainAt := .done }
  let c : State := { b with tMs := b.tMs + 1 }
  let d : State :=
    { c with sState := .idle, sResult := .idleTimeout, history := c.history ++ [.error (.idleTimeout c.sByte)],
             mainPc := .bootWaitBat, mainAt := .start }
  have ha : scheduledStep (silentKeyboard 0) s = .next a := by
    rw [show silentKeyboard 0 = .main from rfl, scheduledStep_main h1]
    simp [mainTurn, mainNext, h5, h4, lineAt, h3, firstLine, h2, runOp, exec, execCmdEnter, advance, mainAfter, afterLine,
      afterFirstLine, goAt, settle, goto, nextLabel, a]
  have hb : scheduledStep (silentKeyboard 1) a = .next b := by
    rw [show silentKeyboard 1 = .main from rfl, scheduledStep_main (s := a) h1]
    simp [mainTurn, mainNext, h5, h4, lineAt, h3, firstLine, runOp, exec, execSend, advance, mainAfter, afterLine,
      afterFirstLine, goAt, settle, sendStart, Config.cmdReset, a, b]
  have hc : scheduledStep (silentKeyboard 2) b = .next c := by
    rw [show silentKeyboard 2 = .offer ⟨.op16, 0x1000, Bytes8.zero⟩ from rfl, scheduledStep_offer (s := b) h1]
    simp [offerTurn, fetch, decode, decodeOp16, decodeOpsel, decodeNoPay, runOp, exec, execTick, advance, mainNext, settle, b, c]
  have hd : scheduledStep (silentKeyboard 3) c = .next d := by
    rw [show silentKeyboard 3 = .offer ⟨.op16, 0x2800, Bytes8.zero⟩ from rfl, scheduledStep_offer (s := c) h1]
    simp [offerTurn, fetch, decode, decodeOp16, decodeOpsel, decodeNoPay, runOp, exec, execIdleTimeout, advance, mainNext, settle,
      raise, goto, nextLabel, h4, a, b, c, d]
  have he : scheduledStep (silentKeyboard 4) d = .next (blockReset (raise .batFail d)) := by
    rw [show silentKeyboard 4 = .offer ⟨.op16, 0x4000, Bytes8.zero⟩ from rfl, scheduledStep_offer (s := d) h1]
    simp [offerTurn, fetch, decode, decodeOp16, decodeOpsel, decodeNoPay, runOp, exec, execBatTimeout, advance, mainNext, lineAt,
      firstLine, h4, a, b, c, d]
    rfl
  refine ⟨blockReset (raise .batFail d), ?_, h1, rfl, rfl, rfl, rfl, rfl⟩
  simp only [silentRound, andThen_of_next, ha, hb, hc, hd, he]

/-- However often, the silent keyboard's rounds lead back to the beginning of the boot. -/
theorem silentKeyboard_runs {s : State} (h : BootBegins s) (n : Nat) :
    ∃ t, runFor silentKeyboard s (5 * n) = .next t ∧ BootBegins t := by
  induction n with
  | zero => exact ⟨s, rfl, h⟩
  | succ n ih =>
    obtain ⟨t, ht, hb⟩ := ih
    obtain ⟨u, hu, hc⟩ := silentRound_next hb
    refine ⟨u, ?_, hc⟩
    rw [← hu, show 5 * (n + 1) = 5 * n + 4 + 1 by omega, runFor_succ, runFor_succ _ _ (5 * n + 3), runFor_succ _ _ (5 * n + 2),
      runFor_succ _ _ (5 * n + 1), runFor_succ _ _ (5 * n), ht, silentKeyboard_period, silentKeyboard_period,
      silentKeyboard_period, silentKeyboard_period]
    exact congrArg (fun w => andThen (andThen (andThen (andThen (scheduledStep w t) _) _) _) _) (silentKeyboard_period n 0)

/-- A condition that never holds where the boot begins ends wherever the silent keyboard's run meets it. -/
theorem silentKeyboard_ends {s : State} (h : BootBegins s) {P : State → Prop} (hP : ∀ t, BootBegins t → ¬ P t) :
    Ends silentKeyboard s P := by
  intro n _ _ _
  obtain ⟨t, ht, hb⟩ := silentKeyboard_runs h n
  exact ⟨5 * n, t, by omega, ht, hP t hb⟩

/-- The silent keyboard's run is fair (60 R181): it boots, gives up and starts over, for ever. -/
theorem silentKeyboard_fair {s : State} (h : BootBegins s) : Fair silentKeyboard s where
  goesOn n := by
    obtain ⟨t, ht, _⟩ := silentKeyboard_runs h n
    exact runFor_le (by omega) ht
  ticks n := ⟨5 * n + 2, _, by omega, silentKeyboard_period n 2⟩
  idleWaitEnds := silentKeyboard_ends h fun t hb hp => by rw [hb.2.2.2.2.1] at hp; cases hp
  inhibitEnds := silentKeyboard_ends h fun t hb hp => by rw [hb.2.2.2.2.1] at hp; cases hp
  ackWaitEnds := silentKeyboard_ends h fun t hb hp => by rw [hb.2.2.2.2.1] at hp; cases hp.1
  recoveryEnds := silentKeyboard_ends h fun t hb hp => by rw [hb.2.2.2.2.2] at hp; cases hp
  batWaitEnds := silentKeyboard_ends h fun t hb hp => by rw [hb.2.1] at hp; cases hp
  mainActs n := ⟨5 * n, by omega, silentKeyboard_period n 0⟩

/-- The machine right after reset has a fair run. -/
theorem fair_run_from_reset : Fair silentKeyboard State.reset :=
  silentKeyboard_fair ⟨rfl, rfl, rfl, rfl, rfl, rfl⟩

end Sys2Proof.Machine
end

