-- ==== Sys2Proof/Tests/Slice0.lean ====
section
/-! SUPPORT. Tests of the model. Expected results come from 95_test_vectors and the encoding tables of 30_encoding. The
`witness_` theorems show, for each statement with hypotheses, a state and operands that meet them. -/

namespace Sys2Proof.Tests

open Sys2Proof Sys2Proof.Machine

/-! ## Helpers -/

/-- The machine after power-up. -/
def z : State := State.reset

/-- One observation of the next state, none at a stop. -/
def obs {α : Type} (o : Outcome) (f : State → α) : Option α :=
  match o with
  | .next t => some (f t)
  | _ => none

/-- A report whose first bytes are given. -/
def rep (l : List Byte) : Bytes8 := bytes8 l

/-- A recording in progress with n steps stored. -/
def recordingAt (n : BitVec 6) : State := { z with mMode := .recording, mFill := n, mCursor := n }

/-- A replay of the two recorded steps of program P3, at cursor c. -/
def replayingAt (c : BitVec 6) : State :=
  { z with
    mMode := .replaying, mCursor := c, mFill := 2,
    steps := (z.steps.set 0 ⟨8, rep [0, 0, 4], 0⟩).set 1 ⟨8, rep [], 100⟩ }

/-- A state in the middle of a session: one byte in the buffer, a key held, a replay under way. -/
def live : State :=
  { replayingAt 0 with rb := [(31, 0x1C)], rbRd := 31, rbWr := 0, eKeys := z.eKeys.set 2 0x1C, mainPc := .lService }

/-- Parameters of the environment: four hotkeys, and the usages of V-ENV-9. -/
def params : EnvParams :=
  ⟨0xE070, 0xE071, 0xE072, 0xE073, fun c => if c = 0x1C#32 then 0x04 else if c = 0xE075#32 then 0x52 else if c = 0x1B#32 then 0x16
      else if c = 0x23#32 then 0x07 else 0xFF, 0xFF⟩

/-- A word of an operation as an offer. -/
def opOffer (w : BitVec 16) : Offer := ⟨.op16, w, Bytes8.zero⟩

/-! ## WellFormed refuses what the encodings do not accept (30_encoding R78, R79) -/

theorem test_wf_report_len :
    (Instr.report 0 Bytes8.zero).wf = false ∧ (Instr.report 9 Bytes8.zero).wf = false ∧
    (Instr.report 1 Bytes8.zero).wf = true ∧ (Instr.report 8 Bytes8.zero).wf = true := by decide
theorem test_wf_ext2Other : (Instr.scanExt2Other 0x00).wf = false ∧ (Instr.scanExt2Other 0xE0).wf = false := by decide
theorem test_wf_extMod : (Instr.scanExtMod 0x12).wf = false ∧ (Instr.scanExtMod 0x1C).wf = false := by decide
theorem test_wf_extPlain : (Instr.scanExtPlain 0x12).wf = false ∧ (Instr.scanExtPlain 0x1F).wf = false := by decide
theorem test_wf_keyMod : (Instr.scanKeyMod 0x1F).wf = false ∧ (Instr.scanKeyMod 0x27).wf = false := by decide
theorem test_wf_keyPlain : (Instr.scanKeyPlain 0xF0).wf = false ∧ (Instr.scanKeyPlain 0x59).wf = false := by decide

/-! ## Decoding: one word for every constructor, written from the tables -/

theorem test_decode_low :
    [(0x0000#16, Instr.edge false), (0x0001, .edge true), (0x0800, .recoveryDone), (0x1000, .tick), (0x1802, .hostLed 0x02),
     (0x2000, .settleDone), (0x2800, .idleTimeout), (0x3000, .setupDone), (0x3800, .ackTimeout), (0x4000, .batTimeout),
     (0x4800, .pop), (0x50ED, .send 0xED), (0x5800, .ackPoll), (0x6000, .resendService), (0x681C, .decode 0x1C)].all
      (fun p => decode .key false (opOffer p.1) == some p.2) = true := by decide
theorem test_decode_high :
    [(0x7000#16, Instr.cmdEnter), (0x7800, .cmdLeave), (0x8000, .modsClear), (0x8800, .recHotkey), (0x9000, .playHotkey),
     (0x9800, .otherPress), (0xA003, .report 3 Bytes8.zero), (0xA800, .service), (0xB000, .ledApply), (0xB800, .batPoll),
     (0xC000, .reset), (0xC8FA, .parity 0xFA), (0xD123, .reserved1A1B 0x123), (0xF801, .reserved1C1F 0x1801)].all
      (fun p => decode .key false (opOffer p.1) == some p.2) = true := by decide
/-- V 2.10's invalid words. -/
theorem test_decode_invalid :
    [0x0002#16, 0x4801, 0xA000, 0xA009, 0xA018, 0x0100].all
      (fun w => decode .key false (opOffer w) == none) = true := by decide
/-- 0x1C with parity 0 is 1 0 00011100 0; 0xED with parity 1 and the device's acknowledge 0 is 0 1 1 11101101 0. -/
theorem test_decode_frames :
    decode .key false ⟨.frame11, 0b10000111000#16, Bytes8.zero⟩ = some (.frameRx 0x1C false) ∧
    decode .key false ⟨.hostSeq11, 0b011111011010#16, Bytes8.zero⟩ = some (.frameTx 0xED true false) := by decide
theorem test_decode_commands :
    [(0x00FF#16, Instr.cmdReset), (0xF002, .cmdScanset2), (0xED07, .cmdSetLeds 0x07), (0x00FE, .cmdResend)].all
      (fun p => decode .key false ⟨.cmd, p.1, Bytes8.zero⟩ == some p.2) = true := by decide
theorem test_decode_responses :
    [(0x00FA#16, Instr.respAck), (0x00AA, .respBatOk), (0x0000, .respZero)].all
      (fun p => decode .key false ⟨.resp, p.1, Bytes8.zero⟩ == some p.2) = true := by decide
theorem test_decode_scan_key :
    [(0x00#16, Instr.scanZero), (0xF0, .scanBreakF0), (0xE0, .scanExtE0), (0xE1, .scanPauseE1), (0x59, .scanKeyMod 0x59),
     (0x1C, .scanKeyPlain 0x1C)].all
      (fun p => decode .key false ⟨.scanByte, p.1, Bytes8.zero⟩ == some p.2) = true := by decide
theorem test_decode_scan_ext :
    [(0x12#16, Instr.scanExtDiscard), (0x59, .scanExtDiscard59), (0x1F, .scanExtMod 0x1F), (0x75, .scanExtPlain 0x75)].all
      (fun p => decode .extendedKey false ⟨.scanByte, p.1, Bytes8.zero⟩ == some p.2) = true := by decide
theorem test_decode_scan_ext2 :
    [(0x14#16, false, Instr.scanExt2Byte14), (0x77, true, .scanExt2Byte77), (0x1C, false, .scanExt2Other 0x1C),
     (0x77, false, .scanExt2Other 0x77), (0xE1, false, .scanExt2Prefix true)].all
      (fun p => decode .extendedKey2 p.2.1 ⟨.scanByte, p.1, Bytes8.zero⟩ == some p.2.2) = true ∧
    decode .command false ⟨.scanByte, 0xFA, Bytes8.zero⟩ = some (.scanCommand 0xFA) := by decide

/-! ## Codec, receive path and wire rows (95 sections 2.1, 2.2) -/

theorem test_parity : [(0x00#8, true), (0x01, false), (0x1C, false), (0xFA, true), (0xFF, true)].all
    (fun p => obs (exec (.parity p.1) z) (·.result) == some (.bit p.2)) = true := by decide
theorem test_edge_start : obs (exec (.edge false) z) (fun t => (t.xBitpos, t.xFerr)) = some (1, 0) := by decide
theorem test_edge_framing : obs (exec (.edge true) { z with xFerr := 0xFF }) (fun t => (t.xFerr, t.xRecover, t.history)) =
    some (0, true, [.error (.framing 0)]) := by decide
theorem test_recoveryDone_keeps_transmit_position :
    obs (exec .recoveryDone { z with xRecover := true, xMode := .tx, xBitpos := 1 }) (fun t => (t.xRecover, t.xBitpos)) =
      some (false, 1) := by decide
theorem test_frameRx : obs (exec (.frameRx 0x1C false) z) (fun t => (t.rb, t.rbWr, t.history)) =
    some ([(0, 0x1C)], 1, []) := by decide
theorem test_frameRx_full_slot :
    obs (exec (.frameRx 0x1C false) { z with rb := [(31, 0x01)], rbWr := 31 }) (fun t => (t.rb, t.xOvf, t.history)) =
      some ([(31, 0x01)], 1, [.error (.overflow 0x1C)]) := by decide
theorem test_respAck_waiting : obs (exec .respAck { z with xAckst := .waiting, sState := .waitAck })
    (fun t => (t.xAckst, t.rb)) = some (.acked, []) := by decide
theorem test_respAck_data : obs (exec .respAck z) (fun t => (t.xAckst, t.rb)) = some (.none, [(0, 0xFA)]) := by decide
theorem test_respZero : obs (exec .respZero z) (fun t => (t.rb, t.history)) = some ([], [.error .zeroByte]) := by decide
/-- V-RST-3, with the frame of 0xAA still to come. -/
theorem test_respBatOk : obs (exec .respBatOk { z with mainPc := .bootWaitBat, rb := [(0, 0x1C)], rbWr := 1 })
    (fun t => (t.mainPc, t.rb, t.rbRd)) = some (.bootScanset, [], 2) := by decide
theorem test_pop_wraps : obs (exec .pop { z with rbRd := 31, rb := [(31, 0x1C)] }) (fun t => (t.rbRd, t.rb, t.result)) =
    some (0, [], .byte 0x1C) := by decide
theorem test_pop_empty : obs (exec .pop { z with rbRd := 5 }) (fun t => (t.rbRd, t.result)) = some (5, .byte 0) := by decide

/-! ## Send procedure (95 section 2.3, programs P2, P5 and P7) -/

theorem test_send : obs (exec (.send 0xED) z) (fun t => (t.sByte, t.sAttempt, t.sState)) = some (0xED, 1, .waitIdle) := by
  decide
theorem test_settleDone : obs (exec .settleDone { z with sState := .waitIdle, xBitpos := 4 })
    (fun t => (t.clkOut, t.xBitpos, t.sState)) = some (false, 0, .inhibit) := by decide
theorem test_idleTimeout : obs (exec .idleTimeout { z with sState := .waitIdle, sByte := 0xED })
    (fun t => (t.sState, t.sResult, t.history)) = some (.idle, .idleTimeout, [.error (.idleTimeout 0xED)]) := by decide
theorem test_setupDone : obs (exec .setupDone { z with sState := .inhibit, clkOut := false, sByte := 0xFE })
    (fun t => (t.dataOut, t.xTxpar, t.xBitpos, t.clkOut, t.xAckst)) = some (false, false, 1, true, .waiting) := by decide
theorem test_frameTx : obs (exec (.frameTx 0xED true false) { z with sState := .inhibit, clkOut := false, sByte := 0xED })
    (fun t => (t.xMode, t.xBitpos, t.dataOut, t.sState)) = some (.rx, 0, true, .waitAck) := by decide
theorem test_edge_transmit : obs (exec (.edge true) { z with xMode := .tx, xBitpos := 2, xTxbyte := 0xED })
    (fun t => (t.dataOut, t.xBitpos)) = some (false, 3) := by decide
theorem test_ackPoll_acked : obs (exec .ackPoll { z with sState := .waitAck, xAckst := .acked })
    (fun t => (t.sState, t.sResult, t.xAckst)) = some (.idle, .ok, .none) := by decide
theorem test_ackPoll_nacked : obs (exec .ackPoll { z with sState := .waitAck, xAckst := .nacked, sAttempt := 1 })
    (fun t => (t.sState, t.sAttempt)) = some (.waitIdle, 2) := by decide
theorem test_ackTimeout_last :
    obs (exec .ackTimeout { z with sState := .waitAck, sAttempt := 3, xAckst := .waiting, sByte := 7 })
      (fun t => (t.sState, t.sResult, t.history)) =
      some (.idle, .failed, [.error (.ackTimeout 7 3), .error (.sendFailed 7)]) := by decide
theorem test_resendService : obs (exec .resendService { z with xResend := true }) (fun t => (t.xResend, t.result)) =
    some (false, .byte 0xFE) := by decide
theorem test_batPoll_discards : obs (exec .batPoll { z with mainPc := .bootWaitBat, rb := [(0, 0x1C)], rbWr := 1 })
    (fun t => (t.mainPc, t.rbRd, t.rb)) = some (.bootWaitBat, 1, []) := by decide
theorem test_batTimeout : obs (exec .batTimeout { z with mainPc := .bootWaitBat, xFerr := 3 })
    (fun t => (t.mainPc, t.xFerr, t.history)) = some (.bootEnter, 0, [.error .batFail]) := by decide
theorem test_reset : obs (exec .reset { z with tMs := 9, rb := [(3, 0x1C)], mFill := 4, mainPc := .lPop })
    (fun t => (t.tMs, t.rb, t.mFill, t.mainPc)) = some (0, [], 0, .bootEnter) := by decide
theorem test_cmdReset : obs (exec .cmdReset { z with mainPc := .bootReset }) (fun t => (t.sByte, t.mainPc, t.mainAt)) =
    some (0xFF, .bootReset, .done) := by decide
/-- Outside BOOT_RESET no label is skipped and no pending byte is lost (log 11). -/
theorem test_cmdReset_elsewhere : obs (exec .cmdReset { z with mainPc := .lPop, mainAt := .done, sends := [0x02] })
    (fun t => (t.sByte, t.mainPc, t.mainAt, t.sends)) = some (0xFF, .lPop, .done, [0x02]) := by decide
theorem test_cmdScanset2 : obs (exec .cmdScanset2 { z with mainPc := .bootScanset })
    (fun t => (t.sByte, t.sState, t.mainAt, t.sends)) = some (0xF0, .waitIdle, .done, [0x02]) := by decide
theorem test_cmdSetLeds : obs (exec (.cmdSetLeds 0x04) z) (fun t => (t.sByte, t.sends)) = some (0xED, [0x04]) := by decide
theorem test_cmdResend : obs (exec .cmdResend { z with xResend := true }) (fun t => (t.sByte, t.xResend)) =
    some (0xFE, false) := by decide

/-! ## Decoder (95 section 2.4) -/

theorem test_decode_discard_keeps_shift :
    obs (exec (.decode 0x12) { z with kMode := .extendedKey, kMods := 0x02 }) (fun t => (t.kMode, t.kMods, t.result)) =
      some (.key, 0x02, .decoded 0x02 0 .none) := by decide
theorem test_decode_pause : obs (exec (.decode 0x77) { z with kMode := .extendedKey2, kP2 := true, kRel := true })
    (fun t => (t.kMode, t.kP2, t.kRel, t.result)) = some (.key, false, false, .decoded 0 0xE11477 .release) := by decide
/-- V-DEC-11 to V-DEC-13: which bit each modifier byte is. -/
theorem test_modifier_bits :
    [(0x14#8, 0x01#8), (0x12, 0x02), (0x11, 0x04), (0x59, 0x20)].all
      (fun p => obs (exec (.scanKeyMod p.1) z) (·.kMods) == some p.2) = true ∧
    [(0x14#8, 0x10#8), (0x11, 0x40), (0x1F, 0x08), (0x27, 0x80)].all
      (fun p => obs (exec (.scanExtMod p.1) { z with kMode := .extendedKey }) (·.kMods) == some p.2) = true := by decide
theorem test_scan_releases : obs (exec (.scanKeyPlain 0x1C) { z with kRel := true }) (·.result) =
      some (.decoded 0 0x1C .release) ∧
    obs (exec (.scanExtPlain 0x75) { z with kMode := .extendedKey, kRel := true }) (·.result) =
      some (.decoded 0 0xE075 .release) := by decide
theorem test_modsClear : obs (exec .modsClear { z with kMods := 0x12, kRel := true, kMode := .extendedKey })
    (fun t => (t.kMods, t.kRel, t.kMode)) = some (0, false, .extendedKey) := by decide
theorem test_cmdLeave_outside_command : exec .cmdLeave z = .fault (.stuck .main) := rfl

/-! ## Macro engine, timebase and host LEDs (95 sections 2.5 to 2.8) -/

theorem test_recHotkey : obs (exec .recHotkey { z with tMs := 1000, mFill := 7 }) (fun t => (t.mMode, t.mFill, t.mLast)) =
    some (.recording, 0, 1000) := by decide
theorem test_playHotkey_recording : obs (exec .playHotkey (recordingAt 1)) (·.mMode) = some .recording := by decide
theorem test_otherPress : obs (exec .otherPress (replayingAt 1)) (fun t => (t.mMode, t.hDirty, t.mCursor, t.history)) =
    some (.stopped, true, 1, []) := by decide
/-- V-MAC-5: the clock wrapped between the two reports. -/
theorem test_report_wraps :
    obs (exec (.report 8 (rep [0, 0, 4])) { recordingAt 1 with mLast := 0xFFFFFFFE, tMs := 4 })
      (fun t => ((stepAt t 1).map MacroStep.delay, t.mFill)) = some (some 2, 2) := by decide
theorem test_report_fills : obs (exec (.report 8 (rep [0, 0, 4])) (recordingAt 39)) (fun t => (t.mMode, t.mFill, t.history)) =
    some (.stopped, 40, [.error .macroFull]) := by decide
theorem test_service_emits : obs (exec .service (replayingAt 0)) (fun t => (t.history, t.mNext, t.result)) =
    some ([.usb [0, 0, 4, 0, 0, 0, 0, 0]], 100, .byte 0x01) := by decide
theorem test_service_record_chase : obs (exec .service { recordingAt 0 with mLedph := 2, mLedt := 1332, tMs := 1332 })
    (fun t => (t.result, t.mLedph, t.mLedt)) = some (.byte 0x01, 0, 1498) := by decide
theorem test_tick_wraps : obs (exec .tick { z with tMs := 0xFFFFFFFF }) (·.tMs) = some 0 := by decide
theorem test_hostLed : obs (exec (.hostLed 0x02) z) (fun t => (t.hLed, t.hDirty)) = some (0x02, true) := by decide
theorem test_ledApply : [(0x00#8, 0x00#8), (0x01, 0x02), (0x02, 0x04), (0x03, 0x06), (0x04, 0x01), (0x05, 0x03), (0x06, 0x05),
    (0x07, 0x07), (0xFF, 0x07)].all
      (fun p => obs (exec .ledApply { z with hLed := p.1, hDirty := true }) (·.result) == some (.byte p.2)) = true := by decide

/-! ## Environment (95 section 2.9) -/

/-- The state in which a triple is to be handled. -/
def handling (s : State) (mods : Byte) (c : Code) (ev : KeyEvent) : State :=
  { s with mainPc := .lPop, mainAt := .handle mods c ev }

/-- V-ENV-1: the insertion and then the report. -/
theorem test_env_press :
    let t := envAct params (envAct params (handling z 0 0x1C .press))
    (t.eKeys[0], t.eArmed, t.eDeadline, t.history) = (0x1C#32, true, 60000#32, [.usb [0, 0, 4, 0, 0, 0, 0, 0]]) := by decide
/-- V-ENV-2, V-ENV-5. -/
theorem test_env_logged :
    (envAct params (handling { z with eKeys := z.eKeys.set 0 0x1C } 0 0x1C .press)).history = [.error (.echo 0x1C)] ∧
    (envAct params (handling z 0 0x1C .release)).history = [.error (.releaseNotFound 0x1C)] := by decide
/-- V-ENV-9. -/
theorem test_env_packs : buildReport params 0 { z with eKeys := (z.eKeys.set 0 0x1B).set 2 0x23 } = rep [0, 0, 0x16, 0x07] := by
  decide
/-- V-ENV-7: the first of the three turns clears the keys, at the deadline and not before. -/
theorem test_env_deadline :
    let s : State := { z with mainPc := .lSafety, eArmed := true, eDeadline := 60000, eKeys := z.eKeys.set 0 0x1C }
    (envAct params { s with tMs := 59999 }).eKeys[0] = 0x1C#32 ∧ (envAct params { s with tMs := 60000 }).eKeys[0] = 0#32 := by
  decide

/-- The test parameters are ones 47 R171 admits, and each clause refuses some. -/
theorem test_admissible :
    params.admissible = true ∧ EnvParams.sample.admissible = true ∧ ({ params with hkPlay := 0xE070 }).admissible = false ∧
    ({ params with hkBlink := 0 }).admissible = false ∧ ({ params with unsupported := 0x52 }).admissible = false := by decide

/-! ## The bare words of the opcode table -/

theorem test_tableWord :
    [(16, 0x0001, Instr.edge true), (16, 0xA008, .report 8 Bytes8.zero), (11, 0x438, .frameRx 0x1C false), (16, 0xC38, .frameTx 0x1C false true),
     (8, 0xFF, .cmdReset), (16, 0xED05, .cmdSetLeds 5), (8, 0xFA, .respAck), (8, 0x1C, .scanKeyPlain 0x1C),
     (8, 0x77, .scanExt2Byte77)].all (fun p => decodeTableWord p.1 p.2.1 == some p.2.2) = true := by decide

/-! ## Witnesses: every hypothesis of every statement is met, clause by clause, at the ends of its range -/

theorem witness_DecodeOfEncode :
    (Instr.report 8 Bytes8.zero).wf = true ∧ selects (.report 8 Bytes8.zero) .key false = true ∧
    (Instr.scanExt2Other 0x14).wf = true ∧ selects (.scanExt2Other 0x14) .extendedKey2 true = true := by decide
theorem witness_DecodedWordIsItsEncoding :
    decode .key false ⟨.op16, 0xA008, Bytes8.zero⟩ = some (.report 8 Bytes8.zero) ∧
    decode .key false ⟨.op16, 0xFFFF, Bytes8.zero⟩ = some (.reserved1C1F 0x1FFF) := by decide
/-- Each way of being invalid at its ends, the valid words beside them, and a state with such an offer. -/
theorem witness_InvalidOperationWords :
    let parts (w : BitVec 16) := (w.toNat / 2048, w.toNat / 256 % 8, w.toNat % 256)
    parts 0xD000 = (0x1A, 0, 0) ∧ parts 0xFFFF = (0x1F, 7, 0xFF) ∧ parts 0x0100 = (0, 1, 0) ∧ parts 0x0002 = (0, 0, 2) ∧
    parts 0xA000 = (0x14, 0, 0) ∧ parts 0xA009 = (0x14, 0, 9) ∧ parts 0xA018 = (0x14, 0, 0x18) ∧ parts 0x4801 = (9, 0, 1) ∧
    parts 0x0001 = (0, 0, 1) ∧ parts 0xA008 = (0x14, 0, 8) ∧ parts 0xC8FF = (0x19, 0, 0xFF) ∧
    ({ z with input := [.offer (opOffer 0x0100)] } : State).input = [.offer (opOffer 0x0100)] := by decide
theorem witness_NoStepWithoutPrecondition :
    ({ z with clkOut := false } : State).clkOut = false ∧ z.xRecover = false ∧ z.sState ≠ .waitIdle ∧ z.sState ≠ .inhibit ∧
    z.sState ≠ .waitAck ∧ ({ z with sState := .waitAck, xAckst := .acked } : State).xAckst ≠ .waiting ∧
    z.mainPc ≠ .bootWaitBat ∧ ({ z with sState := .waitIdle } : State).sState ≠ .idle ∧ z.kMode ≠ .command := by decide
theorem witness_CompositeRowsNeedTheirConditions :
    (∀ c st, ∃ s : State, s.clkOut = c ∧ s.sState = st) ∧ 0xED#8 ≠ z.sByte ∧ true ≠ parity 0x01 ∧
    formatOf (.scanKeyMod 0x1F) = .scanByte ∧ (Instr.scanKeyMod 0x1F).wf = false ∧
    formatOf .scanExtE0 = .scanByte ∧ selects .scanExtE0 .command false = false :=
  ⟨fun c st => ⟨{ z with clkOut := c, sState := st }, rfl, rfl⟩, by decide, by decide, by decide, by decide, by decide, by decide⟩
theorem witness_UnreachableCasesStopOrChangeNothing :
    (∀ p m, ∃ s : State, s.clkOut = true ∧ s.xRecover = false ∧ s.xMode = m ∧ s.xBitpos = p) ∧ 11 ≤ (15#4).toNat ∧
    11 ≤ (11#4).toNat ∧ 12 ≤ (12#4).toNat ∧ 9 ≤ (9#4).toNat ∧
    ({ z with sState := .waitAck } : State).xAckst = .none ∧ (recordingAt 40).mMode = .recording ∧
    40 ≤ (recordingAt 40).mFill.toNat ∧ ({ recordingAt 0 with mLedph := 3 } : State).mLedt.toNat ≤ z.tMs.toNat :=
  ⟨fun p m => ⟨{ z with xMode := m, xBitpos := p }, rfl, rfl, rfl, rfl⟩, by decide, by decide, by decide, by decide, rfl, rfl,
    by decide, by decide⟩
theorem witness_StepRunsDecodedInstruction :
    let s : State := { z with input := [.offer (opOffer 0x1000), .main] }
    s.input = .offer (opOffer 0x1000) :: [.main] ∧ decode s.kMode s.kP2 (opOffer 0x1000) = some .tick := by decide
theorem witness_StepIsMainContextsTurn :
    z.input = [] ∧ mainNext z = .op .cmdEnter ∧ mainNext { z with mainPc := .lSafety } = .env ∧
    mainNext { z with sState := .waitIdle } = .wait := by decide
theorem witness_ReceivePathTakesFrameCheckVerdict : ReceiverIdle z := by decide
theorem witness_EdgeShiftsInOneBit :
    ∀ p ∈ [0#4, 1#4, 8#4, 9#4, 10#4], ∃ s : State, s.xBitpos = p ∧ s.clkOut = true ∧ s.xRecover = false ∧ s.xMode = .rx :=
  fun p _ => ⟨{ z with xBitpos := p }, rfl, rfl, rfl, rfl⟩
theorem witness_StopBitCompletesFrame :
    let s : State := { z with xBitpos := 10, rb := [(31, 0x1C)], rbWr := 31 }
    s.clkOut = true ∧ s.xRecover = false ∧ s.xMode = .rx ∧ s.xBitpos = 10#4 ∧ Memory.wf s.rb = true := by decide
theorem witness_WholeFrameReceived : ReceiverIdle live ∧ Memory.wf live.rb = true := by decide
theorem witness_AckAndZeroResponses :
    let s : State := { z with sState := .waitAck, xAckst := .waiting }
    ReceiverIdle s ∧ Memory.wf s.rb = true := by decide
theorem witness_BatOkResponseEndsTheWait :
    let s : State := { z with mainPc := .bootWaitBat, rb := [(0, 0x1C)], rbWr := 1 }
    ReceiverIdle s ∧ s.mainPc = .bootWaitBat ∧ s.sState = .idle ∧ RbInv s ∧ 0xAA#8 ∉ rbQueue s ∧
    (rbQueue s).length < Config.rbCap ∧ ReceiverIdle z ∧ z.mainPc ≠ .bootWaitBat ∧
    ReceiverIdle { s with sState := .waitIdle } ∧ ({ s with sState := .waitIdle } : State).sState ≠ .idle :=
  ⟨by decide, rfl, rfl, ⟨rfl, 1, by decide, by decide, by decide⟩, by decide, by decide, by decide, by decide, by decide,
    by decide⟩
theorem witness_RecoveryLosesEdgesUntilDone :
    let s : State := { z with xRecover := true }
    s.xRecover = true ∧ s.clkOut = true ∧ s.xMode = .rx ∧ ({ s with xMode := .tx } : State).xMode = .tx := by decide
theorem witness_FramesAreDeliveredInOrder : ReceiverIdle live ∧ RbInv live :=
  ⟨by decide, rfl, 1, by decide, by decide, by decide⟩
theorem witness_PopTakesTheOldestByte : live.sState = .idle ∧ Memory.wf live.rb = true ∧ RbInv live :=
  ⟨rfl, rfl, rfl, 1, by decide, by decide, by decide⟩
/-- RESEND_SERVICE, the command rows and the whole sends: an idle send procedure, with a byte still to be sent. -/
theorem witness_idle :
    let s : State := { z with sends := [0x02] }
    z.sState = .idle ∧ z.xRecover = false ∧ s.sState = .idle ∧ s.input = [] ∧ s.sends = 0x02#8 :: [] := by decide
theorem witness_SendStartsAndAwaitsTheLine :
    z.sState = .idle ∧ ({ z with sState := .waitIdle } : State).sState = .waitIdle := ⟨rfl, rfl⟩
theorem witness_SetupBeginsTransmission :
    let s : State := { z with sState := .inhibit, clkOut := false }
    s.sState = .inhibit ∧ s.xRecover = false := by decide
theorem witness_TransmitEdgePresentsOneBit :
    ∀ p ∈ [1#4, 8#4, 9#4, 10#4, 11#4], ∃ s : State, s.xBitpos = p ∧ s.clkOut = true ∧ s.xRecover = false ∧ s.xMode = .tx :=
  fun p _ => ⟨{ z with xBitpos := p, xMode := .tx }, rfl, rfl, rfl, rfl⟩
theorem witness_TransmittedLevels :
    ({ z with sState := .inhibit } : State).sState = .inhibit ∧ (List.replicate 11 true).length ≤ 11 ∧
    ([] : List Bool).length ≤ 11 := by decide
theorem witness_WholeSequenceTransmitted :
    ({ z with sState := .inhibit, xRecover := true } : State).sState = .inhibit := rfl
theorem witness_AckPollTakesTheOutcome :
    ∀ a, ∃ s : State, s.sState = .waitAck ∧ s.xAckst = a :=
  fun a => ⟨{ z with sState := .waitAck, xAckst := a }, rfl, rfl⟩
theorem witness_AckTimeoutFailsTheAttempt :
    ∀ n, ∃ s : State, s.sState = .waitAck ∧ s.xAckst = .waiting ∧ s.sAttempt = n :=
  fun n => ⟨{ z with sState := .waitAck, xAckst := .waiting, sAttempt := n }, rfl, rfl, rfl⟩
theorem witness_BatPollWaitsForBatOk :
    let s : State := { z with mainPc := .bootWaitBat, rb := [(0, 0xAA)], rbWr := 1 }
    s.mainPc = .bootWaitBat ∧ s.sState = .idle ∧ Memory.wf s.rb = true := by decide
theorem witness_InterruptsNeverSend :
    isInterrupt .tick = true ∧ exec .tick z = .next { z with tMs := 1 } ∧
    ∃ t, exec .setupDone { z with sState := .inhibit } = .next t ∧ t.xMode = .tx := ⟨rfl, rfl, _, rfl, rfl⟩
theorem witness_DecodeSelectsOneRow :
    formatOf (.scanKeyPlain 0x1C) = .scanByte ∧ (wordOf (.scanKeyPlain 0x1C)).toNat = (0x1C#8).toNat ∧
    (Instr.scanKeyPlain 0x1C).wf = true ∧ selects (.scanKeyPlain 0x1C) z.kMode z.kP2 = true := by decide
theorem witness_SilentRows :
    (∀ k p, ∃ s : State, s.kMode = k ∧ s.kP2 = p) ∧ 0x77#8 ∉ [0x00#8, 0xF0#8, 0xE0#8, 0xE1#8] ∧
    ¬(0x77#8 = 0x14#8 ∧ false = false) ∧ ¬(0x77#8 = 0x77#8 ∧ false = true) :=
  ⟨fun k p => ⟨{ z with kMode := k, kP2 := p }, rfl, rfl⟩, by decide, by decide, by decide⟩
theorem witness_EventRows :
    (∀ k p, ∃ s : State, s.kMode = k ∧ s.kP2 = p) ∧
    (∀ b ∈ [0x01#8, 0x1F#8, 0xFF#8], b ∉ [0x00#8, 0xF0#8, 0xE0#8, 0xE1#8, 0x12#8, 0x59#8, 0x14#8, 0x11#8]) ∧
    (∀ b ∈ [0x01#8, 0x75#8, 0xFF#8],
      b ∉ [0x00#8, 0xF0#8, 0xE0#8, 0xE1#8, 0x12#8, 0x59#8, 0x14#8, 0x11#8, 0x1F#8, 0x27#8]) :=
  ⟨fun k p => ⟨{ z with kMode := k, kP2 := p }, rfl, rfl⟩, by decide, by decide⟩
theorem witness_ModifierRows :
    z.kMode = .key ∧ (0x59#8, 5) ∈ [(0x14#8, 0), (0x12#8, 1), (0x11#8, 2), (0x59#8, 5)] ∧
    ({ z with kMode := .extendedKey } : State).kMode = .extendedKey ∧
    (0x27#8, 7) ∈ [(0x14#8, 4), (0x11#8, 6), (0x1F#8, 3), (0x27#8, 7)] := by decide
theorem witness_EventEndsTheSequence :
    ∃ t, exec (.decode 0x1C) z = .next t ∧ t.result = .decoded 0 0x1C .press ∧ KeyEvent.press ≠ .none :=
  ⟨_, rfl, by decide, by decide⟩
theorem witness_PrefixedSequencesDecode :
    z.kMode = .key ∧ z.kRel = false ∧
    0x75#8 ∉ [0x00#8, 0xF0#8, 0xE0#8, 0xE1#8, 0x12#8, 0x59#8, 0x14#8, 0x11#8, 0x1F#8, 0x27#8] := by decide
theorem witness_DecoderControlOperations : ({ z with kMode := .command } : State).kMode = .command := rfl
theorem witness_NoOtherMacroTransition :
    ∃ t, exec .recHotkey z = .next t ∧ isReset .recHotkey = false ∧ t.mMode ≠ z.mMode := ⟨_, rfl, rfl, by decide⟩
theorem witness_ReportAppendsAStep :
    (1 ≤ (1#4).toNat ∧ (1#4).toNat ≤ 8) ∧ (1 ≤ (8#4).toNat ∧ (8#4).toNat ≤ 8) ∧ z.mMode ≠ .recording ∧
    (recordingAt 0).mMode = .recording ∧ (recordingAt 0).mFill = 0#6 ∧ (∀ b ∈ (bytesOf Bytes8.zero).take 8, b = 0#8) ∧
    (∃ b ∈ (bytesOf (rep [4])).take 1, b ≠ 0#8) ∧ (recordingAt 39).mFill.toNat < 40 ∧ (recordingAt 39).mFill ≠ 0#6 := by
  decide
theorem witness_ServiceAdvancesTheChase :
    let p : State := { replayingAt 1 with mNext := 5100, tMs := 5099, mLedph := 2 }
    z.sState = .idle ∧ z.mMode = .stopped ∧ (recordingAt 0).mMode = .recording ∧ (recordingAt 0).mLedph.toNat < 3 ∧
    p.sState = .idle ∧ p.mMode = .replaying ∧ p.mLedph.toNat < 3 ∧ p.mCursor.toNat < p.mFill.toNat ∧
    p.tMs.toNat < p.mNext.toNat := by decide
theorem witness_ServiceReplaysOneDueStep :
    let s := replayingAt 0
    let e := replayingAt 1
    s.sState = .idle ∧ s.mMode = .replaying ∧ s.mLedph.toNat < 3 ∧ s.mFill.toNat ≤ 40 ∧ s.mCursor.toNat + 1 < s.mFill.toNat ∧
    s.mNext.toNat ≤ s.tMs.toNat ∧ stepAt s s.mCursor.toNat = some ⟨8, rep [0, 0, 4], 0⟩ ∧
    stepAt s (s.mCursor.toNat + 1) = some ⟨8, rep [], 100⟩ ∧
    e.mCursor.toNat + 1 = e.mFill.toNat ∧ stepAt e e.mCursor.toNat = some ⟨8, rep [], 100⟩ := by decide
/-- A last step that is empty, one that is not, and no step at all. -/
theorem witness_ServiceEndsTheReplay :
    let e := replayingAt 2
    let f : State := { replayingAt 2 with mFill := 1, mCursor := 1 }
    let n : State := { replayingAt 0 with mFill := 0 }
    (e.sState = .idle ∧ e.mMode = .replaying ∧ e.mFill.toNat ≤ e.mCursor.toNat ∧ e.mFill.toNat ≤ 40 ∧
      stepAt e (e.mFill.toNat - 1) = some ⟨8, rep [], 100⟩ ∧ ∀ b ∈ (bytesOf (rep [])).take 8, b = 0#8) ∧
    (f.mFill.toNat ≤ f.mCursor.toNat ∧ stepAt f (f.mFill.toNat - 1) = some ⟨8, rep [0, 0, 4], 0⟩) ∧
    n.mFill.toNat ≤ n.mCursor.toNat ∧ ¬ 0 < n.mFill.toNat := by decide
theorem live_inv : Inv live := by
  refine ⟨⟨rfl, 1, by decide, by decide, by decide⟩, by decide, by decide, ⟨by decide, by decide, by decide, by decide, ?_⟩,
    by decide⟩
  intro j hj
  have h2 : j < 2 := hj
  match j, h2 with
  | 0, _ => decide
  | 1, _ => decide
/-- One SERVICE of a replay that goes on after it. -/
theorem witness_ReplayEmitsTheRecordingInOrder :
    Inv live ∧ live.mMode = .replaying ∧ (∀ i ∈ [Instr.tick, .service], i = .service ∨ i = .tick) ∧
    ∃ t, runScript [.tick, .service] live = .next t ∧ t.mMode = .replaying :=
  ⟨live_inv, rfl, by decide, _, rfl, by decide⟩
theorem witness_OnlyTickAdvancesTheClock :
    exec (.hostLed 0x02) z = .next { z with hLed := 0x02, hDirty := true } ∧ isReset (.hostLed 0x02) = false ∧
    Instr.hostLed 0x02 ≠ .tick ∧ exec .tick z = .next { z with tMs := 1 } ∧ ∀ b, Instr.tick ≠ .hostLed b :=
  ⟨rfl, rfl, by decide, rfl, fun _ h => by cases h⟩
theorem witness_LedApplyRemapsOnce :
    let s : State := { z with hDirty := true }
    s.sState = .idle ∧ s.hDirty = true ∧ s.mMode = .stopped ∧ z.hDirty = false ∧
    ({ s with mMode := .recording } : State).mMode ≠ .stopped := by decide
theorem witness_ResetRestoresEveryElement : ({ z with mainPc := .bootWaitBat } : State).mainPc = .bootWaitBat := rfl
theorem witness_StepKeepsTheInvariant : Inv live ∧ ∃ t, step live = .next t := ⟨live_inv, _, rfl⟩
theorem witness_HistoryOnlyGrows : ∃ t, exec .respZero z = .next t ∧ t.history = [.error .zeroByte] := ⟨_, rfl, by decide⟩
theorem witness_BootRunsInOrder :
    (∀ l, ∃ s : State, MainFree s ∧ s.mainAt = .start ∧ s.mainPc = l ∧ s.kMode = .command) ∧ rbAt z z.rbRd = 0#8 ∧
    (∀ b ∈ [0xAA#8, 0x1C#8], rbAt { z with rb := [(0, b)] } 0 ≠ 0#8 ∧ Memory.wf [(0, b)] = true) :=
  ⟨fun l => ⟨{ z with mainPc := l, kMode := .command }, ⟨rfl, rfl, rfl⟩, rfl, rfl, rfl⟩, by decide, by decide⟩
theorem witness_MainLoopRunsInOrder :
    (∀ l a d m, ∃ s : State, s.input = [] ∧ s.sState = .idle ∧ s.sends = [] ∧ s.mainAt = a ∧ s.mainPc = l ∧
      s.hDirty = d ∧ s.mMode = m ∧ s.eArmed = false ∧ rbAt s s.rbRd = 0#8 ∧ s.mFill.toNat < 40) ∧
    (rbAt live live.rbRd ≠ 0#8 ∧ Memory.wf live.rb = true) ∧
    (∃ t, exec .service z = .next t ∧ t.result = .none) ∧
    (∃ t, exec .service (recordingAt 0) = .next t ∧ t.result = .byte 0x04) ∧
    (∀ i st a q, ∃ s : State, s.input = i ∧ s.sState = st ∧ s.xAckst = a ∧ s.mainAt = .done ∧ s.sends = q ∧
      s.sAttempt = 3#2 ∧ s.xMode = .rx) :=
  ⟨fun l a d m => ⟨{ z with mainPc := l, mainAt := a, hDirty := d, mMode := m },
      rfl, rfl, rfl, rfl, rfl, rfl, rfl, rfl, by rfl, show z.mFill.toNat < 40 by decide⟩,
    by decide, ⟨_, rfl, by decide⟩, ⟨_, rfl, by decide⟩,
    fun i st a q => ⟨{ z with input := i, sState := st, xAckst := a, mainAt := .done, sends := q, sAttempt := 3 },
      rfl, rfl, rfl, rfl, rfl, rfl, rfl⟩⟩
theorem witness_MainContextNeverStuck :
    Inv live ∧ (live.mainPc = .bootLeave → live.kMode = .command) ∧ live.input = [] :=
  ⟨live_inv, by decide, rfl⟩
/-- An abort; an echo; a full set; an insertion; a release found and one not found. -/
theorem witness_PressAndReleaseUpdateTheKeySet :
    let s : State := handling z 0 0x1C .press
    let held : State := { s with eKeys := z.eKeys.set 5 0x1C }
    let full : State := { s with eKeys := #v[1, 2, 3, 4, 5, 6] }
    s.mainAt = .handle 0 0x1C .press ∧ (0x1C : Code) ≠ 0#32 ∧ ((replayingAt 0).mMode = .replaying ∧ (0x1C : Code) ≠ params.hkPlay) ∧
    ¬(s.mMode = .replaying ∧ (0x1C : Code) ≠ params.hkPlay) ∧ 0x1C#32 ∈ held.eKeys.toList ∧
    (0x1C#32 ∉ full.eKeys.toList ∧ 0#32 ∉ full.eKeys.toList) ∧ 0x1C#32 ∉ s.eKeys.toList ∧ 0#32 ∈ s.eKeys.toList := by decide
theorem witness_ChangeEmitsThePackedReport :
    ∀ m c mods, ∃ s : State, s.mainAt = .emit mods c ∧ s.mainPc ≠ .lSafety ∧ s.mMode = m ∧ mods = s.ePrevmods :=
  fun m c mods => ⟨{ z with mainPc := .lPop, mainAt := .emit mods c, mMode := m, ePrevmods := mods }, rfl, by simp, rfl, rfl⟩
/-- L_SAFETY with its deadline at 100 ms. -/
def armed : State := { z with mainPc := .lSafety, eArmed := true, eDeadline := 100 }
/-- The same with a key held. -/
def armedHeld : State := { armed with eKeys := z.eKeys.set 5 0x1C }
theorem witness_SafetyDeadlineClearsStuckKeys :
    (MainFree armed ∧ armed.mainPc = .lSafety ∧ armed.mainAt = .start ∧ armed.eArmed = true ∧
      ∀ c ∈ armed.eKeys.toList, c = 0#32) ∧
    (MainFree armedHeld ∧ armedHeld.mMode = .stopped ∧ ∃ c ∈ armedHeld.eKeys.toList, c ≠ 0#32) ∧
    ({ armedHeld with tMs := 99 } : State).tMs.toNat < armedHeld.eDeadline.toNat ∧
    armedHeld.eDeadline.toNat ≤ ({ armedHeld with tMs := 100 } : State).tMs.toNat :=
  ⟨⟨by decide, rfl, rfl, rfl, by simp [armed, z, State.reset]⟩, ⟨by decide, rfl, 0x1C, by decide, by decide⟩, by decide, by decide⟩
theorem witness_NoLiveReportWhileReplaying :
    let s : State := { replayingAt 0 with mainPc := .lPop }
    s.input = [] ∧ s.mMode = .replaying ∧ mainNext s ≠ .op .service ∧ ∃ t, step s = .next t :=
  ⟨rfl, rfl, by decide, _, rfl⟩

end Sys2Proof.Tests
end

/-! The preconditions of the operations (00_scope R12): without its precondition an operation has no step, and the main context's
own operations always find theirs. -/

namespace Sys2Proof.Machine

/-! ## Operations without their preconditions -/

/-- A guarded operation whose precondition fails leaves its agent stuck (00 R12). -/
theorem guarded_stuck {pre : Bool} {a : Agent} {o : Outcome} (h : ¬ pre = true) : guarded pre a o = .fault (.stuck a) :=
  if_neg h

/-- The device is stuck on the first edge of a run while the clock is held low (30 R77). -/
theorem runEdges_clockHeld {s : State} (hclk : s.clkOut = false) (d : Bool) (ds : List Bool) :
    runEdges (d :: ds) s = .fault (.stuck .device) := by
  have hedge : edgeOp d s = .fault (.stuck .device) := guarded_stuck (by simp [hclk])
  rw [runEdges_cons, hedge, andThen_of_fault]

/-- A frame cannot arrive while the clock is held low: its start bit already finds no step. -/
theorem goodFrame_clockHeld {s : State} (hclk : s.clkOut = false) (b : Byte) :
    goodFrame b s = .fault (.stuck .device) :=
  runEdges_clockHeld hclk _ _

/-- Every row of the byte map is one effect under the row's own byte class and selector. -/
theorem exec_scanByte {i : Instr} (h : formatOf i = .scanByte) (s : State) : ∃ t, exec i s = scanRowOp i s t := by
  cases i with
  | scanZero | scanBreakF0 | scanExtE0 | scanPauseE1 | scanExt2Prefix | scanExt2Byte14 | scanExt2Byte77 | scanExt2Other
  | scanExtDiscard | scanExtDiscard59 | scanExtMod | scanExtPlain | scanKeyMod | scanKeyPlain | scanCommand => exact ⟨_, rfl⟩
  | _ => cases h

/-- A row of the byte map has no step without its byte or in another mode. -/
theorem exec_scanByte_stuck {i : Instr} {s : State} (hfmt : formatOf i = .scanByte)
    (h : i.wf = false ∨ selects i s.kMode s.kP2 = false) : exec i s = .fault (.stuck .main) := by
  obtain ⟨t, hexec⟩ := exec_scanByte hfmt s
  rw [hexec]
  exact guarded_stuck (by simpa [← Bool.not_eq_true, ← not_and_or] using h)

/-- Settles O5: each operation is guarded by the precondition of its row of 30_encoding R77, for its agent. -/
theorem noStepWithoutPrecondition : Obligations.NoStepWithoutPrecondition := by
  intro s
  refine ⟨fun h d => guarded_stuck ?edge, fun h => guarded_stuck ?recoveryDone,
    fun h => ⟨guarded_stuck ?settleDone, guarded_stuck ?idleTimeout⟩, fun h => guarded_stuck ?setupDone,
    fun h => guarded_stuck ?ackTimeout, fun h => guarded_stuck ?batTimeout,
    fun h => ⟨guarded_stuck ?pop, fun b => guarded_stuck ?send, guarded_stuck ?resendService, guarded_stuck ?service,
      guarded_stuck ?ledApply⟩,
    fun h => guarded_stuck ?ackPoll, fun h => guarded_stuck ?cmdLeave, fun h => guarded_stuck ?batPoll⟩
  case ackTimeout | batPoll => simpa [← not_and_or] using h
  all_goals simpa using h

/-- Settles O6: a frame begins with an edge, and a host sequence, a command and a byte class are guarded. -/
theorem compositeRowsNeedTheirConditions : Obligations.CompositeRowsNeedTheirConditions := by
  intro s
  refine ⟨fun hclk => ⟨fun d p => runEdges_clockHeld hclk _ _, goodFrame_clockHeld hclk _, ?batOk, goodFrame_clockHeld hclk _⟩,
    fun d p a h => guarded_stuck ?frameTx,
    fun h => ⟨guarded_stuck ?reset, guarded_stuck ?scanset2, fun v => guarded_stuck ?setLeds, guarded_stuck ?resend⟩,
    fun i hfmt h => exec_scanByte_stuck hfmt h⟩
  case batOk =>
    change andThen (goodFrame Config.batOk s) _ = _
    rw [goodFrame_clockHeld hclk, andThen_of_fault]
  case frameTx => simpa [imp_iff_not_or, or_assoc] using h
  all_goals simpa using h

/-! ## The main context's own operations -/

/-- Every index below MACRO_CAP has a step. -/
theorem stepAt_inBounds (s : State) {j : Nat} (h : j < Config.macroCap) : ∃ m, stepAt s j = some m :=
  ⟨s.steps[j]'h, Vector.getElem?_eq_getElem h⟩

/-- The schedule finds the next step inside the store, and leaves the chase phase alone (44 R152). -/
theorem scheduleNext_completes {s : State} (hfill : s.mFill.toNat ≤ Config.macroCap) :
    ∃ t, scheduleNext s = .next t ∧ t.mLedph = s.mLedph := by
  unfold scheduleNext
  split
  next hcur =>
    obtain ⟨m, hm⟩ := stepAt_inBounds s (hcur.trans_le hfill)
    rw [hm]
    exact ⟨_, rfl, rfl⟩
  next => exact ⟨_, rfl, rfl⟩

/-- A replay whose cursor is inside the recording goes on, and leaves the chase phase alone (44 R152). -/
theorem replayDue_completes {s : State} (hfill : s.mFill.toNat ≤ Config.macroCap)
    (hcur : s.mCursor.toNat < s.mFill.toNat) : ∃ t, replayDue s = .next t ∧ t.mLedph = s.mLedph := by
  unfold replayDue
  split
  next =>
    obtain ⟨m, hm⟩ := stepAt_inBounds s (hcur.trans_le hfill)
    rw [hm]
    exact scheduleNext_completes (s := { emitStep m s with mCursor := s.mCursor + 1 }) hfill
  next => exact ⟨_, rfl, rfl⟩

/-- A replay that has sent its last step ends, and leaves the chase phase alone (44 R153). -/
theorem replayEnd_completes {s : State} (hfill : s.mFill.toNat ≤ Config.macroCap) :
    ∃ t, replayEnd s = .next t ∧ t.mLedph = s.mLedph := by
  unfold replayEnd
  split
  next => exact ⟨_, rfl, rfl⟩
  next hne =>
    have hpos : s.mFill.toNat ≠ 0 := fun e => hne (BitVec.eq_of_toNat_eq e)
    obtain ⟨m, hm⟩ := stepAt_inBounds s (j := s.mFill.toNat - 1) (by omega)
    rw [hm]
    refine ⟨_, rfl, ?_⟩
    split <;> rfl

/-- SERVICE's replay part completes while M_FILL is inside the store (44 R151). -/
theorem servicePlay_completes {s : State} (hfill : s.mFill.toNat ≤ Config.macroCap) :
    ∃ t, servicePlay s = .next t ∧ t.mLedph = s.mLedph := by
  unfold servicePlay
  split
  next =>
    split
    next hcur => exact replayDue_completes hfill hcur
    next => exact replayEnd_completes hfill
  next => exact ⟨_, rfl, rfl⟩

/-- Both chase patterns have a byte for each phase (00 R8). -/
theorem chasePattern_inBounds (s : State) {ph : Nat} (h : ph < Config.ledPhases) : ∃ led, (chasePattern s)[ph]? = some led := by
  have hlen : (chasePattern s).length = Config.ledPhases := by unfold chasePattern; split <;> rfl
  exact ⟨_, List.getElem?_eq_getElem (hlen ▸ h)⟩

/-- The LED chase completes in each of its phases (44 R154). -/
theorem serviceLeds_completes {s : State} (hph : s.mLedph.toNat < Config.ledPhases) : ∃ t, serviceLeds s = .next t := by
  unfold serviceLeds
  split
  next =>
    obtain ⟨led, hled⟩ := chasePattern_inBounds s hph
    rw [hled]
    exact ⟨_, rfl⟩
  next => exact ⟨_, rfl⟩

/-- SERVICE completes between sends while the macro store and the chase phase are in range (44 R151). -/
theorem execService_completes {s : State} (hidle : s.sState = .idle) (hfill : s.mFill.toNat ≤ Config.macroCap)
    (hph : s.mLedph.toNat < Config.ledPhases) : ∃ t, execService s = .next t := by
  obtain ⟨u, hplay, hledph⟩ := servicePlay_completes hfill
  obtain ⟨t, hleds⟩ := serviceLeds_completes (s := u) (hledph ▸ hph)
  exact ⟨t, guarded_next.mpr ⟨by simp [hidle], andThen_next.mpr ⟨u, hplay, hleds⟩⟩⟩

/-- REPORT with a valid length completes, because a recording has room (44 R150). -/
theorem execReport_completes {len : BitVec 4} {s : State} (r : Bytes8) (hlen : validLen len = true)
    (hroom : s.mMode = .recording → s.mFill.toNat < Config.macroCap) : ∃ t, execReport len r s = .next t := by
  unfold execReport
  rw [if_neg (by simp [hlen])]
  split
  next => exact ⟨_, rfl⟩
  next hrec =>
    rw [if_pos (hroom (not_not.mp hrec))]
    split <;> exact ⟨_, rfl⟩

/-- ACK_POLL completes while the send context waits for a reply or has one (42 R112). -/
theorem execAckPoll_completes {s : State} (hwait : s.sState = .waitAck) (hack : s.xAckst ≠ .none) :
    ∃ t, execAckPoll s = .next t := by
  unfold execAckPoll
  rw [hwait]
  cases hst : s.xAckst with
  | none => exact absurd hst hack
  | waiting | acked | nacked => exact ⟨_, rfl⟩

/-- An operation that needs only an idle send procedure completes when it is idle. -/
theorem guarded_idle_completes {s : State} (hidle : s.sState = .idle) (t : State) :
    ∃ u, guarded (s.sState == .idle) .main (.next t) = .next u :=
  ⟨t, by simp [hidle]⟩

/-- RESEND_SERVICE completes between sends (42 R117). -/
theorem execResendService_completes {s : State} (hidle : s.sState = .idle) : ∃ t, execResendService s = .next t := by
  simp only [execResendService, ← apply_ite Host.Outcome.next]
  exact guarded_idle_completes hidle _

/-- LED_APPLY completes between sends (45 R161). -/
theorem execLedApply_completes {s : State} (hidle : s.sState = .idle) : ∃ t, execLedApply s = .next t := by
  simp only [execLedApply, ← apply_ite Host.Outcome.next]
  exact guarded_idle_completes hidle _

/-- The operation of every hotkey case completes, in every macro mode (44 R147 to R149, 70 R188). -/
theorem exec_hotInstr_completes (h : HotOp) (s : State) : ∃ t, exec (hotInstr h) s = .next t := by
  cases h with
  | otherPress | reset => exact ⟨_, rfl⟩
  | recHotkey =>
    change ∃ t, execRecHotkey s = .next t
    unfold execRecHotkey
    split <;> exact ⟨_, rfl⟩
  | playHotkey =>
    change ∃ t, execPlayHotkey s = .next t
    unfold execPlayHotkey
    split <;> exact ⟨_, rfl⟩

/-- The first line of every label completes between sends: BAT_POLL stands at its own label, CMD_LEAVE leaves the mode the boot
entered, and SERVICE finds the macro store in range (47 R163, 70 R190). -/
theorem firstLine_completes {s : State} {i : Instr} (hline : firstLine s.mainPc = .op i) (hidle : s.sState = .idle)
    (hinv : MacroInv s) (hleave : s.mainPc = .bootLeave → s.kMode = .command) : ∃ t, exec i s = .next t := by
  obtain ⟨hfill, -, -, hph, -⟩ := hinv
  cases hpc : s.mainPc <;> rw [hpc] at hline <;> cases hline
  case bootEnter => exact ⟨_, rfl⟩
  case bootReset | bootScanset | lPop => exact guarded_idle_completes hidle _
  case bootWaitBat => exact ⟨_, guarded_next.mpr ⟨by simp [hpc, hidle], rfl⟩⟩
  case bootLeave => exact ⟨_, guarded_next.mpr ⟨by simp [hleave hpc], rfl⟩⟩
  case lResend => exact execResendService_completes hidle
  case lService => exact execService_completes hidle hfill hph
  case lLed => exact execLedApply_completes hidle

/-- The operation at every point inside a label completes between sends (47 R163 to R170). -/
theorem lineAt_completes {s : State} {i : Instr} (hline : lineAt s = .op i) (hidle : s.sState = .idle)
    (hinv : MacroInv s) (hleave : s.mainPc = .bootLeave → s.kMode = .command) : ∃ t, exec i s = .next t := by
  unfold lineAt at hline
  cases hat : s.mainAt <;> rw [hat] at hline
  case start => exact firstLine_completes hline hidle hinv hleave
  case decode | clear => cases hline; exact ⟨_, rfl⟩
  case issue => cases hline; exact exec_hotInstr_completes _ s
  case report =>
    cases hline
    obtain ⟨-, -, hrec, -⟩ := hinv
    exact execReport_completes _ (by decide) fun hmode => (hrec hmode).1
  case handle | emit | cleared | done => cases hline

/-- What the main context issues: the poll of a send under way, else the next pending send, else the operation at its point
(42 R106). -/
theorem mainNext_op_cases {s : State} {i : Instr} (h : mainNext s = .op i) :
    (s.sState = .waitAck ∧ i = .ackPoll) ∨
    (s.sState = .idle ∧ ∃ b rest, s.sends = b :: rest ∧ i = .send b) ∨
    (s.sState = .idle ∧ s.sends = [] ∧ lineAt s = .op i) := by
  unfold mainNext at h
  cases hst : s.sState <;> rw [hst] at h
  case waitAck => cases h; exact .inl ⟨rfl, rfl⟩
  case waitIdle | inhibit => cases h
  case idle =>
    cases hq : s.sends <;> rw [hq] at h
    case nil => exact .inr (.inr ⟨rfl, rfl, h⟩)
    case cons b rest => cases h; exact .inr (.inl ⟨rfl, b, rest, rfl, rfl⟩)

/-- Every operation the main context issues of itself finds its precondition (00 R12). -/
theorem mainNext_completes {s : State} {i : Instr} (hnext : mainNext s = .op i) (hinv : Inv s)
    (hleave : s.mainPc = .bootLeave → s.kMode = .command) : ∃ t, exec i s = .next t := by
  obtain ⟨hwait, rfl⟩ | ⟨hidle, b, rest, -, rfl⟩ | ⟨hidle, -, hline⟩ := mainNext_op_cases hnext
  · obtain ⟨hack, -⟩ := hinv.send
    exact execAckPoll_completes hwait (hack.mpr hwait)
  · exact guarded_idle_completes hidle _
  · exact lineAt_completes hline hidle hinv.macros hleave

/-- An operation with a step is run to its end by the turn that issues it. -/
theorem runOp_of_next {i : Instr} {s t : State} (h : exec i s = .next t) : runOp i s = .next (advance i s t) := by
  rw [runOp, h, andThen_of_next]

/-- With nothing offered the step is the main context's turn (20 R69). -/
theorem step_of_no_input {s : State} (h : s.input = []) : step s = mainTurn s := by
  simp only [step, takeTurn, h]

/-- Settles O56: a turn is an operation that finds its precondition, an action of the environment, or a wait. -/
theorem mainContextNeverStuck : Obligations.MainContextNeverStuck := by
  intro s hinv hleave hin
  rw [step_of_no_input hin, mainTurn]
  cases hnext : mainNext s with
  | op i =>
    obtain ⟨t, ht⟩ := mainNext_completes hnext hinv hleave
    exact ⟨_, runOp_of_next ht⟩
  | env | wait => exact ⟨_, rfl⟩

end Sys2Proof.Machine

/-! The invariant of the machine and the output history (10_state R54, R55): every completed operation keeps the first and only
appends to the second. -/

namespace Sys2Proof.Machine

/-! ## Completed operations -/

/-- What a completed operation from s to t owes: it keeps the invariant (10 R55), and takes back no output (10 R54). -/
structure Keeps (s t : State) : Prop where
  inv : Inv s → Inv t
  history : s.history <+: t.history

/-- Operations in sequence. -/
theorem Keeps.trans {s t u : State} (hst : Keeps s t) (htu : Keeps t u) : Keeps s u :=
  ⟨fun h => htu.inv (hst.inv h), hst.history.trans htu.history⟩

/-- t differs from s only in elements that neither the invariant nor the output speaks of. -/
def Quiet (s t : State) : Prop :=
  t = { s with
    xRxshift := t.xRxshift, xRxpar := t.xRxpar, xTxbyte := t.xTxbyte, xTxpar := t.xTxpar, xRecover := t.xRecover,
    xResend := t.xResend, xFerr := t.xFerr, xPerr := t.xPerr, xOvf := t.xOvf, dataOut := t.dataOut, sByte := t.sByte,
    kMode := t.kMode, kMods := t.kMods, kRel := t.kRel, kP2 := t.kP2, mLast := t.mLast, mNext := t.mNext, mLedt := t.mLedt,
    tMs := t.tMs, hLed := t.hLed, hDirty := t.hDirty, mainPc := t.mainPc, mainAt := t.mainAt, sends := t.sends,
    ePrevmods := t.ePrevmods, eDeadline := t.eDeadline, eArmed := t.eArmed, result := t.result, input := t.input,
    freeCount := t.freeCount }

/-- A quiet operation keeps the invariant and the output. -/
theorem Quiet.keeps {s t : State} (h : Quiet s t) : Keeps s t := by
  unfold Quiet at h
  rw [h]
  exact ⟨fun hs => ⟨hs.rb, hs.bitpos, hs.send, hs.macros, hs.keys⟩, List.prefix_rfl⟩

/-- An operation that changes nothing. -/
theorem Keeps.refl (s : State) : Keeps s s := Quiet.keeps rfl

/-- An error event is an output (60 R174). -/
theorem raise_keeps (e : ErrorEvent) (s : State) : Keeps s (raise e s) :=
  ⟨fun h => ⟨h.rb, h.bitpos, h.send, h.macros, h.keys⟩, List.prefix_append _ _⟩

/-- A report is an output (10 R54). -/
theorem emitUsb_keeps (r : List Byte) (s : State) : Keeps s (emitUsb r s) :=
  ⟨fun h => ⟨h.rb, h.bitpos, h.send, h.macros, h.keys⟩, List.prefix_append _ _⟩

/-! ## Reset -/

/-- Settles O50: the view of the power-up state is evaluated number by number. -/
theorem resetRegisterView : Obligations.ResetRegisterView := by
  refine ⟨?_, ?_, ?_, ?_, ?_, ?_, ?_, ?_, ?_, ?_⟩ <;> decide

/-- Settles O51: the buffer is empty, the send procedure idle, the macro store empty and no key tracked. -/
theorem invariantHoldsAtReset : Obligations.InvariantHoldsAtReset where
  rb := ⟨rfl, 0, by decide, rfl, fun k _ => iff_of_false (fun hne => hne rfl) (Nat.not_lt_zero k)⟩
  bitpos := by decide
  send := by decide
  macros := ⟨by decide, by decide, nofun, by decide, fun j hj => absurd hj (Nat.not_lt_zero j)⟩
  keys := by decide

/-- A block reset establishes the invariant from any state, whatever STEP then holds (70 R188). -/
theorem blockReset_keeps (s : State) : Keeps s (blockReset s) := by
  obtain ⟨hrb, hbitpos, hsend, ⟨hfill, hcur, hrec, hph, -⟩, hkeys⟩ := invariantHoldsAtReset
  exact ⟨fun _ => ⟨hrb, hbitpos, hsend, ⟨hfill, hcur, hrec, hph, fun j hj => absurd hj (Nat.not_lt_zero j)⟩, hkeys⟩,
    List.prefix_rfl⟩

/-! ## Ring buffer -/

/-- Different offsets from an index name different slots. -/
theorem slot_offset_inj {r : BitVec 5} {j k : Nat} (hj : j < Config.rbCap) (hk : k < Config.rbCap)
    (h : r + BitVec.ofNat 5 j = r + BitVec.ofNat 5 k) : j = k := by
  have hmod : j % Config.rbCap = k % Config.rbCap := by
    simpa [Config.rbCap] using congrArg BitVec.toNat (add_left_cancel h)
  rwa [Nat.mod_eq_of_lt hj, Nat.mod_eq_of_lt hk] at hmod

/-- The slots, counted from RB_RD, after a write to one of them. -/
theorem rbSlot_rbSet {s : State} (hwf : Memory.wf s.rb = true) {j k : Nat} (hj : j < Config.rbCap) (hk : k < Config.rbCap)
    (v : Byte) : rbSlot (rbSet s (s.rbRd + BitVec.ofNat 5 j) v) k = if k = j then v else rbSlot s k := by
  split
  next hkj => rw [hkj]; exact rbAt_rbSet_same hwf _ v
  next hne => exact rbAt_rbSet_other s v fun e => hne (slot_offset_inj hk hj e)

/-- The slots, counted from RB_RD, after the one at RB_RD was emptied and RB_RD moved on (42 R105). -/
theorem rbSlot_popped {s : State} (hwf : Memory.wf s.rb = true) {k : Nat} (hk : k < Config.rbCap) :
    rbSlot { s with rb := Memory.write s.rb s.rbRd.toNat 0, rbRd := s.rbRd + 1 } k =
      if k + 1 = Config.rbCap then 0#8 else rbSlot s (k + 1) := by
  have hshift : s.rbRd + 1 + BitVec.ofNat 5 k = s.rbRd + BitVec.ofNat 5 (k + 1) := by
    rw [BitVec.ofNat_add]
    ac_rfl
  change rbAt (rbSet s s.rbRd 0) (s.rbRd + 1 + BitVec.ofNat 5 k) = _
  rw [hshift]
  split
  next hlast =>
    have hwrap : s.rbRd + BitVec.ofNat 5 (k + 1) = s.rbRd := by simp [hlast, Config.rbCap]
    rw [hwrap]
    exact rbAt_rbSet_same hwf _ 0
  next hne =>
    have hother := rbSlot_rbSet hwf (j := 0) (by decide) (lt_of_le_of_ne hk hne) 0
    simpa [rbSlot] using hother

/-- Pushing a byte lengthens the run of used slots by the slot at RB_WR, or drops the byte (41 R102). -/
theorem rbPush_rbInv {b : Byte} (hb : b ≠ 0#8) {s : State} (h : RbInv s) : RbInv (rbPush b s) := by
  obtain ⟨hslot, heq⟩ | ⟨-, heq⟩ := rbPush_cases b s <;> rw [heq]
  · obtain ⟨hwf, n, hn, hwr, hrun⟩ := h
    have hroom : n < Config.rbCap := by
      refine lt_of_le_of_ne (Nat.le_of_lt_succ hn) ?_
      rintro rfl
      exact (hrun 0 (by decide)).mpr (by decide) (by simpa [rbSlot, hwr, Config.rbCap] using hslot)
    refine ⟨Memory.write_wf hwf _ _, n + 1, by omega, ?_, fun k hk => ?_⟩
    · change s.rbWr + 1 = s.rbRd + BitVec.ofNat 5 (n + 1)
      rw [hwr, BitVec.ofNat_add, BitVec.add_assoc]
      rfl
    · change rbSlot (rbSet s s.rbWr b) k ≠ 0#8 ↔ k < n + 1
      rw [hwr, rbSlot_rbSet hwf hroom hk]
      split
      next hkn => exact iff_of_true hb (by omega)
      next hkn => exact (hrun k hk).trans (by omega)
  · exact h

/-- Popping a byte shortens the run of used slots by the slot at RB_RD, or finds it empty (42 R105). -/
theorem rbPop_rbInv {s : State} (h : RbInv s) : RbInv (rbPop s) := by
  obtain ⟨-, heq⟩ | ⟨hfront, heq⟩ := rbPop_cases s <;> rw [heq]
  · exact h
  · obtain ⟨hwf, n, hn, hwr, hrun⟩ := h
    obtain ⟨n, rfl⟩ : ∃ m, n = m + 1 :=
      Nat.exists_eq_add_one.mpr ((hrun 0 (by decide)).mp (by simpa [rbSlot, rbFront] using hfront))
    refine ⟨Memory.write_wf hwf _ _, n, by omega, ?_, fun k hk => ?_⟩
    · change s.rbWr = s.rbRd + 1 + BitVec.ofNat 5 n
      rw [hwr, BitVec.ofNat_add]
      ac_rfl
    · rw [rbSlot_popped hwf hk]
      split
      next hlast => exact iff_of_false (fun hne => hne rfl) (by omega)
      next hne => exact (hrun (k + 1) (lt_of_le_of_ne hk hne)).trans (by omega)

/-- A push keeps the invariant, and reports a dropped byte (41 R102). -/
theorem rbPush_keeps {b : Byte} (hb : b ≠ 0#8) (s : State) : Keeps s (rbPush b s) := by
  have hrb := fun h : Inv s => rbPush_rbInv hb h.rb
  obtain ⟨-, heq⟩ | ⟨-, heq⟩ := rbPush_cases b s <;> rw [heq] at hrb ⊢
  · exact ⟨fun h => ⟨hrb h, h.bitpos, h.send, h.macros, h.keys⟩, List.prefix_rfl⟩
  · exact ⟨fun h => ⟨hrb h, h.bitpos, h.send, h.macros, h.keys⟩, List.prefix_append _ _⟩

/-- A pop keeps the invariant and outputs nothing (42 R105). -/
theorem rbPop_keeps (s : State) : Keeps s (rbPop s) := by
  have hrb := fun h : Inv s => rbPop_rbInv h.rb
  rw [rbPop_frame] at hrb ⊢
  exact ⟨fun h => ⟨hrb h, h.bitpos, h.send, h.macros, h.keys⟩, List.prefix_rfl⟩

/-- A pass of the wait for 0xAA is a pop and at most a move of MAIN_PC (42 R121). -/
theorem batPollOnce_keeps (s : State) : Keeps s (batPollOnce s) := by
  unfold batPollOnce
  split
  next => exact (rbPop_keeps s).trans (Quiet.keeps rfl)
  next => exact rbPop_keeps s

/-- The wait for 0xAA is a run of its passes (42 R120). -/
theorem batWait_keeps (n : Nat) (s : State) : Keeps s (batWait n s) := by
  induction n generalizing s with
  | zero => exact Keeps.refl s
  | succ n ih =>
    unfold batWait
    split
    next => exact (batPollOnce_keeps s).trans (ih _)
    next => exact Keeps.refl s

/-! ## Edges -/

/-- A move to another receive position, with what it samples (10 R20). -/
theorem rxPosition_keeps {s : State} (hrx : s.xMode = .rx) {pos : BitVec 4} (hpos : pos.toNat ≤ 10) (v : Byte) (p : Bool) :
    Keeps s { s with xBitpos := pos, xRxshift := v, xRxpar := p } := by
  refine ⟨fun h => ⟨h.rb, ⟨hpos.trans (by decide), fun _ => hpos, fun htx => ?_⟩, h.send, h.macros, h.keys⟩, List.prefix_rfl⟩
  cases hrx.symm.trans htx

/-- A move to another transmit position, with the level it presents (10 R20). -/
theorem txPosition_keeps {s : State} (htx : s.xMode = .tx) {pos : BitVec 4} (hlo : 1 ≤ pos.toNat)
    (hhi : pos.toNat ≤ Config.txEdges) (d : Bool) : Keeps s { s with xBitpos := pos, dataOut := d } := by
  refine ⟨fun h => ⟨h.rb, ⟨hhi, fun hrx => ?_, fun _ => hlo⟩, h.send, h.macros, h.keys⟩, List.prefix_rfl⟩
  cases htx.symm.trans hrx

/-- The end of a transmission: the receiver is between frames (42 R111). -/
theorem txEnd_keeps (s : State) : Keeps s { s with xMode := .rx, xBitpos := 0 } := by
  refine ⟨fun h => ⟨h.rb, by simp [BitposInv], ?_, h.macros, h.keys⟩, List.prefix_rfl⟩
  obtain ⟨hack, -, hclk, hsend⟩ := h.send
  exact ⟨hack, nofun, hclk, hsend⟩

/-- The reply to a send arrives in receive mode, while the ACK is awaited (41 R101). -/
theorem ackReply_keeps {s : State} (hrx : s.xMode = .rx) (hwait : s.xAckst = .waiting) {a : AckState} (ha : a ≠ .none) :
    Keeps s { s with xAckst := a } := by
  refine ⟨fun h => ⟨h.rb, h.bitpos, ?_, h.macros, h.keys⟩, List.prefix_rfl⟩
  obtain ⟨hack, -, hclk, hsend⟩ := h.send
  exact ⟨iff_of_true ha (hack.mp (by simp [hwait])), fun htx => (by cases hrx.symm.trans htx), hclk, hsend⟩

/-- A framing error abandons the frame (41 R99). -/
theorem framingError_keeps {s : State} (hrx : s.xMode = .rx) : Keeps s (framingError s) := by
  have hgap := rxPosition_keeps hrx (pos := 0) (by decide) s.xRxshift s.xRxpar
  exact Keeps.trans (hgap.trans (Quiet.keeps (by rfl))) (raise_keeps _ _)

/-- Frame completion is a reply to the send, a push, or an error event (41 R101). -/
theorem frameDone_keeps {s : State} (hrx : s.xMode = .rx) (b : Byte) (p : Bool) : Keeps s (frameDone b p s) := by
  obtain ⟨-, hwait, heq⟩ | ⟨-, -, heq⟩ | ⟨-, -, hwait, heq⟩ | ⟨-, -, heq⟩ | ⟨-, hb, -, heq⟩ := frameDone_cases b p s <;>
    rw [heq]
  · have hcount : Keeps s { s with xPerr := s.xPerr + 1, xAckst := .nacked } :=
      (ackReply_keeps hrx hwait (a := .nacked) (by decide)).trans (Quiet.keeps rfl)
    exact hcount.trans (raise_keeps (.nack b) _)
  · exact (Quiet.keeps (t := { s with xPerr := s.xPerr + 1, xResend := true }) rfl).trans (raise_keeps (.parity b) _)
  · exact ackReply_keeps hrx hwait (by decide)
  · exact raise_keeps .zeroByte s
  · exact rbPush_keeps hb s

/-- An edge in receive mode (41 R93). -/
theorem rxEdge_keeps {d : Bool} {s t : State} (hrx : s.xMode = .rx) (h : rxEdge d s = .next t) : Keeps s t := by
  obtain ⟨-, rfl⟩ | ⟨hlo, hhi, rfl⟩ | ⟨-, rfl⟩ | ⟨-, rfl⟩ := rxEdge_cases h
  · unfold rxStart
    split
    next => exact framingError_keeps hrx
    next => exact rxPosition_keeps hrx (by decide) _ _
  · exact rxPosition_keeps hrx (by bv_omega) _ _
  · exact rxPosition_keeps hrx (by decide) _ _
  · have hgap := rxPosition_keeps hrx (pos := 0) (by decide) s.xRxshift s.xRxpar
    unfold rxStop
    split
    next => exact hgap.trans (frameDone_keeps (s := { s with xBitpos := 0 }) hrx _ _)
    next => exact hgap.trans (framingError_keeps (s := { s with xBitpos := 0 }) hrx)

/-- An edge in transmit mode (42 R111). -/
theorem txEdge_keeps {s : State} (htx : s.xMode = .tx) : Keeps s (txEdge s) := by
  unfold txEdge
  split
  next hpos =>
    obtain ⟨hlo, hhi⟩ := hpos
    exact txPosition_keeps htx (by bv_omega) (by simp only [Config.txEdges]; bv_omega) _
  next =>
    split
    next => exact txPosition_keeps htx (by decide) (by decide) _
    next =>
      split
      next => exact txPosition_keeps htx (by decide) (by decide) _
      next =>
        split
        next => exact txEnd_keeps s
        next => exact Keeps.refl s

/-- An edge is lost, transmits a position, or receives one (41 R93). -/
theorem edgeOp_keeps {d : Bool} {s t : State} (h : edgeOp d s = .next t) : Keeps s t := by
  obtain ⟨-, ⟨-, rfl⟩ | ⟨-, htx, rfl⟩ | ⟨-, hrx, hedge⟩⟩ := edgeOp_cases h
  · exact Keeps.refl _
  · exact txEdge_keeps htx
  · exact rxEdge_keeps hrx hedge

/-- A run of edges: a frame, or the clocking of a host sequence (30 R74, R75). -/
theorem runEdges_keeps {ds : List Bool} {s t : State} (h : runEdges ds s = .next t) : Keeps s t := by
  induction ds generalizing s with
  | nil => cases h; exact Keeps.refl _
  | cons d ds ih =>
    obtain ⟨u, hu, ht⟩ := andThen_next.mp h
    exact (edgeOp_keeps hu).trans (ih ht)

/-- RECOVERY_DONE keeps the position of a transmission set up meanwhile (41 R100). -/
theorem execRecoveryDone_keeps {s t : State} (h : execRecoveryDone s = .next t) : Keeps s t := by
  obtain ⟨-, h⟩ := guarded_next.mp h
  cases h
  split
  next hrx => exact (rxPosition_keeps hrx (pos := 0) (by decide) s.xRxshift s.xRxpar).trans (Quiet.keeps (by rfl))
  next => exact Quiet.keeps (by rfl)

/-- RESP_BAT_OK is a frame and the polls that take it (30 R83). -/
theorem execRespBatOk_keeps {s t : State} (h : execRespBatOk s = .next t) : Keeps s t := by
  obtain ⟨u, hframe, hwait⟩ := andThen_next.mp h
  cases hwait
  exact (runEdges_keeps hframe).trans (batWait_keeps _ _)

/-! ## Send procedure -/

/-- Outside WaitAck the block is in receive mode (42 R108). -/
theorem SendInv.rx {s : State} (h : SendInv s) (hst : s.sState ≠ .waitAck) : s.xMode = .rx := by
  obtain ⟨hack, htx, -⟩ := h
  cases hm : s.xMode with
  | rx => rfl
  | tx => exact absurd (hack.mp (by simp [htx hm])) hst

/-- A send starts from an idle procedure (42 R107). -/
theorem sendStart_keeps {s : State} (hidle : s.sState = .idle) (b : Byte) : Keeps s (sendStart b s) := by
  refine ⟨fun h => ⟨h.rb, h.bitpos, ?_, h.macros, h.keys⟩, List.prefix_rfl⟩
  obtain ⟨hack, htx, hclk, -⟩ := h.send
  rw [hidle] at hack hclk
  exact ⟨by simpa [sendStart] using hack, htx, by simpa [sendStart] using hclk, fun _ => ⟨le_rfl, rfl⟩⟩

/-- SETTLE_DONE holds the clock low for the inhibit (42 R108). -/
theorem execSettleDone_keeps {s t : State} (h : execSettleDone s = .next t) : Keeps s t := by
  obtain ⟨hst, h⟩ := guarded_next.mp h
  rw [beq_iff_eq] at hst
  cases h
  refine ⟨fun h => ⟨h.rb, ?_, ?_, h.macros, h.keys⟩, List.prefix_rfl⟩
  · simp [BitposInv, h.send.rx (by simp [hst])]
  · obtain ⟨hack, htx, -, hsend⟩ := h.send
    rw [hst] at hack hsend
    exact ⟨by simpa using hack, htx, by simp, fun _ => hsend (by decide)⟩

/-- IDLE_TIMEOUT ends the send before the clock was held (42 R109). -/
theorem execIdleTimeout_keeps {s t : State} (h : execIdleTimeout s = .next t) : Keeps s t := by
  obtain ⟨hst, h⟩ := guarded_next.mp h
  rw [beq_iff_eq] at hst
  cases h
  refine Keeps.trans ?_ (raise_keeps _ _)
  refine ⟨fun h => ⟨h.rb, h.bitpos, ?_, h.macros, h.keys⟩, List.prefix_rfl⟩
  obtain ⟨hack, htx, hclk, -⟩ := h.send
  rw [hst] at hack hclk
  exact ⟨by simpa using hack, htx, by simpa using hclk, fun hne => absurd rfl hne⟩

/-- SETUP_DONE begins the transmission and the wait for its ACK (42 R110). -/
theorem setupTransmit_keeps {s : State} (hst : s.sState = .inhibit) : Keeps s (setupTransmit s) := by
  refine ⟨fun h => ⟨h.rb, ⟨Nat.le_add_left 1 10, nofun, fun _ => le_rfl⟩, ?_, h.macros, h.keys⟩, List.prefix_rfl⟩
  obtain ⟨-, -, -, hsend⟩ := h.send
  rw [hst] at hsend
  exact ⟨by simp [setupTransmit], fun _ => rfl, by simp [setupTransmit], fun _ => hsend (by decide)⟩

/-- A failed attempt that transmits no more ends the wait for the ACK, and is retried or gives up (42 R114). -/
theorem attemptFailed_keeps {s : State} (hst : s.sState = .waitAck) (hack : s.xAckst ≠ .waiting ∨ s.xMode = .rx) :
    Keeps s (attemptFailed { s with xAckst := .none }) := by
  have hrx : ∀ h : Inv s, s.xMode ≠ .tx := by
    intro h htx
    obtain ⟨-, hwait, -⟩ := h.send
    exact hack.elim (fun hne => hne (hwait htx)) (fun hrx => by cases hrx.symm.trans htx)
  obtain ⟨hlt, heq⟩ | ⟨-, heq⟩ := attemptFailed_cases { s with xAckst := .none } <;> rw [heq]
  · refine ⟨fun h => ⟨h.rb, h.bitpos, ?_, h.macros, h.keys⟩, List.prefix_rfl⟩
    obtain ⟨-, -, hclk, hsend⟩ := h.send
    rw [hst] at hclk hsend
    obtain ⟨hattempt, hres⟩ := hsend (by decide)
    refine ⟨by simp, fun htx => absurd htx (hrx h), by simpa using hclk, fun _ => ⟨?_, hres⟩⟩
    simp only [Config.sendAttempts] at hlt
    bv_omega
  · refine ⟨fun h => ⟨h.rb, h.bitpos, ?_, h.macros, h.keys⟩, List.prefix_append _ _⟩
    obtain ⟨-, -, hclk, -⟩ := h.send
    rw [hst] at hclk
    exact ⟨by simp, fun htx => absurd htx (hrx h), by simpa using hclk, fun hne => absurd rfl hne⟩

/-- ACK_POLL finds the ACK awaited, received, or refused (42 R112). -/
theorem execAckPoll_keeps {s t : State} (h : execAckPoll s = .next t) : Keeps s t := by
  obtain ⟨hst, h⟩ := guarded_next.mp h
  rw [beq_iff_eq] at hst
  cases hack : s.xAckst <;> rw [hack] at h <;> cases h
  case waiting => exact Keeps.refl s
  case nacked => exact attemptFailed_keeps hst (.inl (by simp [hack]))
  case acked =>
    refine ⟨fun h => ⟨h.rb, h.bitpos, ?_, h.macros, h.keys⟩, List.prefix_rfl⟩
    obtain ⟨-, htx, hclk, -⟩ := h.send
    rw [hack] at htx
    rw [hst] at hclk
    exact ⟨by simp, fun hm => (by cases htx hm), by simpa using hclk, fun hne => absurd rfl hne⟩

/-- A transmission cut short leaves the receiver between frames (42 R113). -/
theorem abandonTransmit_keeps (s : State) : Keeps s (abandonTransmit s) := by
  unfold abandonTransmit
  split
  next => exact (txEnd_keeps s).trans (Quiet.keeps rfl)
  next => exact Keeps.refl s

/-- Whatever is abandoned, the block is then in receive mode, and the send waits where it did (42 R113). -/
theorem abandonTransmit_rx (s : State) : (abandonTransmit s).xMode = .rx ∧ (abandonTransmit s).sState = s.sState := by
  unfold abandonTransmit
  split
  next => exact ⟨rfl, rfl⟩
  next hne =>
    cases hm : s.xMode with
    | rx => exact ⟨rfl, rfl⟩
    | tx => exact absurd hm hne

/-- ACK_TIMEOUT abandons the transmission and fails the attempt (42 R113). -/
theorem execAckTimeout_keeps {s t : State} (h : execAckTimeout s = .next t) : Keeps s t := by
  obtain ⟨hpre, h⟩ := guarded_next.mp h
  rw [Bool.and_eq_true, beq_iff_eq, beq_iff_eq] at hpre
  obtain ⟨hst, -⟩ := hpre
  cases h
  obtain ⟨hrx, hsame⟩ := abandonTransmit_rx s
  exact ((abandonTransmit_keeps s).trans (raise_keeps (.ackTimeout s.sByte s.sAttempt) _)).trans
    (attemptFailed_keeps (hsame.trans hst) (.inr hrx))

/-- An operation of the main context that needs only an idle send procedure. -/
theorem guarded_idle_keeps {s t u : State} (hkeeps : s.sState = .idle → Keeps s t)
    (h : guarded (s.sState == .idle) .main (.next t) = .next u) : Keeps s u := by
  obtain ⟨hidle, h⟩ := guarded_next.mp h
  cases h
  exact hkeeps (beq_iff_eq.mp hidle)

/-- FRAME_TX is SETUP_DONE and the device's edges (30 R75). -/
theorem execFrameTx_keeps {d : Byte} {p a : Bool} {s t : State} (h : execFrameTx d p a s = .next t) : Keeps s t := by
  obtain ⟨hpre, h⟩ := guarded_next.mp h
  simp only [Bool.and_eq_true, beq_iff_eq] at hpre
  obtain ⟨⟨hst, -⟩, -⟩ := hpre
  exact (setupTransmit_keeps hst).trans (runEdges_keeps h)

/-! ## Macro store -/

/-- Leaving a macro mode (44 R155). -/
theorem macroStop_keeps (s : State) : Keeps s (macroStop s) := by
  refine ⟨fun h => ⟨h.rb, h.bitpos, h.send, ?_, h.keys⟩, List.prefix_rfl⟩
  obtain ⟨hfill, hcur, -, hph, hlen⟩ := h.macros
  exact ⟨hfill, hcur, nofun, hph, hlen⟩

/-- REC_HOTKEY starts an empty recording or leaves the mode (44 R147). -/
theorem execRecHotkey_keeps {s t : State} (h : execRecHotkey s = .next t) : Keeps s t := by
  unfold execRecHotkey at h
  cases hm : s.mMode <;> rw [hm] at h <;> cases h
  case stopped =>
    exact ⟨fun h => ⟨h.rb, h.bitpos, h.send,
      ⟨Nat.zero_le _, le_rfl, fun _ => ⟨Nat.succ_pos _, rfl⟩, Nat.succ_pos _, fun j hj => absurd hj (Nat.not_lt_zero j)⟩, h.keys⟩,
      List.prefix_rfl⟩
  case recording | replaying => exact macroStop_keeps s

/-- PLAY_HOTKEY starts a replay from the first step, leaves one, or does nothing (44 R148). -/
theorem execPlayHotkey_keeps {s t : State} (h : execPlayHotkey s = .next t) : Keeps s t := by
  unfold execPlayHotkey at h
  cases hm : s.mMode <;> rw [hm] at h <;> cases h
  case stopped =>
    refine ⟨fun h => ⟨h.rb, h.bitpos, h.send, ?_, h.keys⟩, List.prefix_rfl⟩
    obtain ⟨hfill, -, -, -, hlen⟩ := h.macros
    exact ⟨hfill, Nat.zero_le _, nofun, Nat.succ_pos _, hlen⟩
  case replaying => exact macroStop_keeps s
  case recording => exact Keeps.refl s

/-- OTHER_PRESS leaves a replay (44 R149). -/
theorem execOtherPress_keeps {s t : State} (h : execOtherPress s = .next t) : Keeps s t := by
  cases h
  split
  next => exact macroStop_keeps s
  next => exact Keeps.refl s

/-- Every step below M_FILL is valid after a valid one was stored there (10 R49). -/
theorem stepAt_stepAppend_valid {s : State} {m : MacroStep} (hm : validLen m.len = true)
    (hroom : s.mFill.toNat < Config.macroCap)
    (hlen : ∀ j, j < s.mFill.toNat → (stepAt s j).any (fun m => validLen m.len) = true) :
    ∀ j, j < s.mFill.toNat + 1 → (stepAt (stepSet s s.mFill.toNat m) j).any (fun m => validLen m.len) = true := by
  intro j hj
  by_cases hlast : j = s.mFill.toNat
  · rw [hlast, stepAt_stepSet_same s m hroom]
    exact hm
  · rw [stepAt_stepSet_other s m hlast]
    exact hlen j (by omega)

/-- Storing a step keeps the store in range, and ends the recording that it fills (44 R150, R157). -/
theorem fullCheck_stepAppend_keeps {s : State} {m : MacroStep} (hm : validLen m.len = true)
    (hroom : s.mFill.toNat < Config.macroCap) : Keeps s (fullCheck (stepAppend m s)) := by
  have hfill : (s.mFill + 1).toNat = s.mFill.toNat + 1 := by simp only [Config.macroCap] at hroom; bv_omega
  by_cases hfull : (s.mFill + 1).toNat = Config.macroCap
  · rw [fullCheck_stepAppend_full m s hfull]
    refine ⟨fun h => ⟨h.rb, h.bitpos, h.send, ?_, h.keys⟩, List.prefix_append _ _⟩
    obtain ⟨-, -, -, hph, hlen⟩ := h.macros
    exact ⟨hfull.le, le_rfl, nofun, hph, hfill ▸ stepAt_stepAppend_valid hm hroom hlen⟩
  · rw [fullCheck_stepAppend_room m s hfull]
    refine ⟨fun h => ⟨h.rb, h.bitpos, h.send, ?_, h.keys⟩, List.prefix_rfl⟩
    obtain ⟨-, -, -, hph, hlen⟩ := h.macros
    have hlt : (s.mFill + 1).toNat < Config.macroCap := by omega
    exact ⟨hlt.le, le_rfl, fun _ => ⟨hlt, rfl⟩, hph, hfill ▸ stepAt_stepAppend_valid hm hroom hlen⟩

/-- REPORT stores a step while recording (44 R150). -/
theorem execReport_keeps {len : BitVec 4} {r : Bytes8} {s t : State} (h : execReport len r s = .next t) : Keeps s t := by
  unfold execReport at h
  split at h
  next => cases h
  next hvalid =>
    rw [Bool.not_eq_false] at hvalid
    split at h
    next => cases h; exact Keeps.refl s
    next =>
      split at h
      next => cases h; exact Keeps.refl s
      next =>
        split at h
        next hroom => cases h; exact fullCheck_stepAppend_keeps hvalid hroom
        next => cases h

/-- The schedule of a replay is no part of the invariant (44 R152). -/
theorem scheduleNext_keeps {s t : State} (h : scheduleNext s = .next t) : Keeps s t := by
  unfold scheduleNext at h
  split at h
  next =>
    split at h
    next => cases h; exact Quiet.keeps rfl
    next => cases h
  next => cases h; exact Keeps.refl s

/-- The cursor of a replay moves on while a step is left (44 R152). -/
theorem nextCursor_keeps {s : State} (hrep : s.mMode = .replaying) (hcur : s.mCursor.toNat < s.mFill.toNat) :
    Keeps s { s with mCursor := s.mCursor + 1 } := by
  refine ⟨fun h => ⟨h.rb, h.bitpos, h.send, ?_, h.keys⟩, List.prefix_rfl⟩
  obtain ⟨hfill, -, -, hph, hlen⟩ := h.macros
  exact ⟨hfill, by dsimp only; bv_omega, fun hrec => (by cases hrep.symm.trans hrec), hph, hlen⟩

/-- A due step is emitted, and the cursor and the schedule move on (44 R152). -/
theorem replayDue_keeps {s t : State} (hrep : s.mMode = .replaying) (hcur : s.mCursor.toNat < s.mFill.toNat)
    (h : replayDue s = .next t) : Keeps s t := by
  unfold replayDue at h
  split at h
  next =>
    split at h
    next m hm =>
      have hemit : Keeps s (emitStep m s) := emitUsb_keeps _ s
      exact (hemit.trans (nextCursor_keeps (s := emitStep m s) hrep hcur)).trans (scheduleNext_keeps h)
    next => cases h
  next => cases h; exact Keeps.refl s

/-- The end of a replay may release all keys, and leaves the mode (44 R153). -/
theorem replayEnd_keeps {s t : State} (h : replayEnd s = .next t) : Keeps s t := by
  have hrelease : Keeps s (emitRelease s) := emitUsb_keeps _ s
  unfold replayEnd at h
  split at h
  next => cases h; exact hrelease.trans (macroStop_keeps _)
  next =>
    split at h
    next =>
      cases h
      refine Keeps.trans ?_ (macroStop_keeps _)
      split
      next => exact Keeps.refl s
      next => exact hrelease
    next => cases h

/-- SERVICE's replay part (44 R151). -/
theorem servicePlay_keeps {s t : State} (h : servicePlay s = .next t) : Keeps s t := by
  unfold servicePlay at h
  split at h
  next hrep =>
    split at h
    next hcur => exact replayDue_keeps hrep hcur h
    next => exact replayEnd_keeps h
  next => cases h; exact Keeps.refl s

/-- The next chase phase is one of the three (44 R154). -/
theorem nextPhase_lt (ph : BitVec 2) : (nextPhase ph).toNat < Config.ledPhases := by
  revert ph
  decide

/-- A move of the chase to its next phase (44 R154). -/
theorem nextPhase_keeps (s : State) : Keeps s { s with mLedph := nextPhase s.mLedph } := by
  refine ⟨fun h => ⟨h.rb, h.bitpos, h.send, ?_, h.keys⟩, List.prefix_rfl⟩
  obtain ⟨hfill, hcur, hrec, -, hlen⟩ := h.macros
  exact ⟨hfill, hcur, hrec, nextPhase_lt _, hlen⟩

/-- SERVICE's LED chase (44 R154). -/
theorem serviceLeds_keeps {s t : State} (h : serviceLeds s = .next t) : Keeps s t := by
  unfold serviceLeds at h
  split at h
  next =>
    split at h
    next => cases h; exact (nextPhase_keeps s).trans (Quiet.keeps rfl)
    next => cases h
  next => cases h; exact Quiet.keeps rfl

/-- SERVICE is its replay part and the chase (44 R151). -/
theorem execService_keeps {s t : State} (h : execService s = .next t) : Keeps s t := by
  obtain ⟨-, h⟩ := guarded_next.mp h
  obtain ⟨u, hplay, hleds⟩ := andThen_next.mp h
  exact (servicePlay_keeps hplay).trans (serviceLeds_keeps hleds)

/-! ## Decoder -/

/-- A final byte in Key touches only the decoder's elements and the returned triple (43 R137, R138). -/
theorem decodeInKey_quiet (b : Byte) (s : State) : Quiet s (decodeInKey b s) := by
  unfold decodeInKey
  split <;> rfl

/-- A final byte in ExtendedKey touches only them (43 R134 to R136). -/
theorem decodeInExt_quiet (b : Byte) (s : State) : Quiet s (decodeInExt b s) := by
  unfold decodeInExt
  split
  next => rfl
  next => split <;> rfl

/-- A byte of the pause sequence touches only them (43 R130 to R133). -/
theorem decodeInExt2_quiet (b : Byte) (s : State) : Quiet s (decodeInExt2 b s) := by
  unfold decodeInExt2
  repeat' split
  all_goals rfl

/-- DECODE touches only the decoder's elements and the returned triple (43 R124). -/
theorem decodeByte_quiet (b : Byte) (s : State) : Quiet s (decodeByte b s) := by
  unfold decodeByte
  repeat' split
  next => rfl
  next => rfl
  next => rfl
  next => exact decodeInExt2_quiet b s
  next => rfl
  next => rfl
  next => exact decodeInExt_quiet b s
  next => exact decodeInKey_quiet b s

/-- A row of the byte map touches only the decoder's elements and the returned triple (43 R125 to R138). -/
theorem exec_scanByte_quiet {i : Instr} {s t : State} (hfmt : formatOf i = .scanByte) (h : exec i s = .next t) : Quiet s t := by
  cases i with
  | scanZero | scanBreakF0 | scanExtE0 | scanPauseE1 | scanExt2Prefix | scanExt2Byte14 | scanExt2Byte77 | scanExt2Other
  | scanExtDiscard | scanExtDiscard59 | scanExtMod | scanExtPlain | scanKeyMod | scanKeyPlain | scanCommand =>
    obtain ⟨-, rfl⟩ := scanRowOp_next.mp h
    rfl
  | _ => cases hfmt

/-! ## Every instruction -/

/-- RESEND_SERVICE touches only the request and the returned value (42 R117). -/
theorem execResendService_keeps {s t : State} (h : execResendService s = .next t) : Keeps s t := by
  obtain ⟨-, h⟩ := guarded_next.mp h
  split at h <;> cases h <;> exact Quiet.keeps rfl

/-- LED_APPLY touches only H_DIRTY and the returned value (45 R161). -/
theorem execLedApply_keeps {s t : State} (h : execLedApply s = .next t) : Keeps s t := by
  obtain ⟨-, h⟩ := guarded_next.mp h
  split at h <;> cases h <;> exact Quiet.keeps rfl

/-- Every instruction that completes keeps the invariant and takes back no output. -/
theorem exec_keeps {i : Instr} {s t : State} (h : exec i s = .next t) : Keeps s t := by
  cases i with
  | edge d => exact edgeOp_keeps h
  | frameRx | respAck | respZero => exact runEdges_keeps h
  | respBatOk => exact execRespBatOk_keeps h
  | frameTx => exact execFrameTx_keeps h
  | recoveryDone => exact execRecoveryDone_keeps h
  | settleDone => exact execSettleDone_keeps h
  | idleTimeout => exact execIdleTimeout_keeps h
  | setupDone =>
    obtain ⟨hst, h⟩ := guarded_next.mp h
    cases h
    exact setupTransmit_keeps (beq_iff_eq.mp hst)
  | ackTimeout => exact execAckTimeout_keeps h
  | ackPoll => exact execAckPoll_keeps h
  | send b => exact guarded_idle_keeps (fun hidle => sendStart_keeps hidle b) h
  | cmdReset | cmdScanset2 | cmdSetLeds | cmdResend =>
    exact guarded_idle_keeps (fun hidle => (sendStart_keeps hidle _).trans (Quiet.keeps (by rfl))) h
  | pop => exact guarded_idle_keeps (fun _ => (rbPop_keeps s).trans (Quiet.keeps (by rfl))) h
  | batPoll =>
    obtain ⟨-, h⟩ := guarded_next.mp h
    cases h
    exact batPollOnce_keeps s
  | resendService => exact execResendService_keeps h
  | ledApply => exact execLedApply_keeps h
  | recHotkey => exact execRecHotkey_keeps h
  | playHotkey => exact execPlayHotkey_keeps h
  | otherPress => exact execOtherPress_keeps h
  | report => exact execReport_keeps h
  | service => exact execService_keeps h
  | reset => cases h; exact blockReset_keeps s
  | batTimeout =>
    obtain ⟨-, h⟩ := guarded_next.mp h
    cases h
    exact (raise_keeps .batFail s).trans (blockReset_keeps _)
  | decode b => cases h; exact (decodeByte_quiet b s).keeps
  | cmdLeave =>
    obtain ⟨-, h⟩ := guarded_next.mp h
    cases h
    exact Quiet.keeps rfl
  | tick | hostLed | cmdEnter | modsClear | parity => cases h; exact Quiet.keeps rfl
  | reserved1A1B | reserved1C1F => cases h
  | _ => exact (exec_scanByte_quiet rfl h).keeps

/-- Settles O53: an instruction is made of operations each of which keeps the output or appends to it. -/
theorem historyOnlyGrows : Obligations.HistoryOnlyGrows := fun _ _ _ h => (exec_keeps h).history

/-! ## Environment -/

/-- Tracked codes are distinct when the first one, unless its slot is empty, is in no later slot, and the later ones are
distinct (47 R164). -/
theorem nodup_filter_cons (x : Code) (xs : List Code) :
    ((x :: xs).filter (· != 0#32)).Nodup ↔ (x = 0#32 ∨ x ∉ xs) ∧ (xs.filter (· != 0#32)).Nodup := by
  by_cases hx : x = 0#32 <;> simp [hx]

/-- A code that no slot holds, or the empty slot, can take any slot (47 R164). -/
theorem nodup_filter_set {keys : List Code} (i : Nat) {c : Code} (hc : c = 0#32 ∨ c ∉ keys)
    (h : (keys.filter (· != 0#32)).Nodup) : ((keys.set i c).filter (· != 0#32)).Nodup := by
  induction keys generalizing i with
  | nil => exact h
  | cons x xs ih =>
    obtain ⟨hx, hrest⟩ := (nodup_filter_cons x xs).mp h
    have hcxs : c = 0#32 ∨ c ∉ xs := hc.imp_right fun hn hm => hn (List.mem_cons_of_mem _ hm)
    cases i with
    | zero => exact (nodup_filter_cons c xs).mpr ⟨hcxs, hrest⟩
    | succ i =>
      refine (nodup_filter_cons x (xs.set i c)).mpr ⟨?_, ih i hcxs hrest⟩
      refine or_iff_not_imp_left.mpr fun hne hmem => ?_
      obtain hold | rfl := List.mem_or_eq_of_mem_set hmem
      · exact hx.resolve_left hne hold
      · exact hc.resolve_left hne List.mem_cons_self

/-- E_KEYS[i] takes a code that no slot holds, or is emptied (47 R166, R167). -/
theorem keySet_keeps {s : State} {c : Code} (i : Nat) (hc : c = 0#32 ∨ c ∉ s.eKeys.toList) : Keeps s (keySet i c s) := by
  refine ⟨fun h => ⟨h.rb, h.bitpos, h.send, h.macros, ?_⟩, List.prefix_rfl⟩
  simpa [keySet, KeysInv, Vector.toList_setIfInBounds] using nodup_filter_set i hc h.keys

/-- A code without a slot is not tracked. -/
theorem not_mem_eKeys {s : State} {c : Code} (h : ¬ slotOf c s < Config.keysetCap) : c ∉ s.eKeys.toList := by
  intro hmem
  refine h ?_
  have := List.findIdx_lt_length_of_exists (p := (· == c)) ⟨c, hmem, by simp⟩
  simpa [slotOf, Config.keysetCap] using this

/-- Emptying every slot (47 R170). -/
theorem clearKeys_keeps (s : State) : Keeps s { s with eKeys := Vector.replicate 6 0 } :=
  ⟨fun h => ⟨h.rb, h.bitpos, h.send, h.macros, invariantHoldsAtReset.keys⟩, List.prefix_rfl⟩

/-- The events of a report build are outputs (47 R168). -/
theorem raiseUnsupported_keeps (p : EnvParams) (s : State) : Keeps s (raiseUnsupported p s) :=
  ⟨fun h => ⟨h.rb, h.bitpos, h.send, h.macros, h.keys⟩, List.prefix_append _ _⟩

/-- A move inside the label is quiet. -/
theorem goAt_quiet (m : MainPoint) (s : State) : Quiet s (goAt m s) := rfl

/-- Any deadline is quiet. -/
theorem deadline_quiet (d : Millis) (s : State) : Quiet s { s with eDeadline := d, eArmed := true } := rfl

/-- Arming the deadline is quiet (47 R166). -/
theorem armDeadline_quiet (s : State) : Quiet s (armDeadline s) := deadline_quiet _ s

/-- The end of a handling moves the main position and disarms the deadline (47 R165, R170). -/
theorem handled_quiet (s : State) : Quiet s (handled s) := by
  unfold handled
  split <;> rfl

/-- The emission of a report is outputs and a move of the main position (47 R169). -/
theorem envEmit_keeps (p : EnvParams) (mods : Byte) (s : State) : Keeps s (envEmit p mods s) := by
  have hevents := raiseUnsupported_keeps p s
  have hreport := hevents.trans (emitUsb_keeps (bytesOf (buildReport p mods s)) _)
  unfold envEmit
  split
  next => exact hevents.trans (handled_quiet _).keeps
  next => exact hreport.trans (goAt_quiet _ _).keeps
  next => exact hreport.trans (handled_quiet _).keeps

/-- A press takes an empty slot for a code that has none, or changes no slot (47 R166). -/
theorem envPress_keeps (p : EnvParams) (c : Code) (mods : Byte) (s : State) : Keeps s (envPress p c mods s) := by
  unfold envPress
  split
  next => exact (goAt_quiet _ s).keeps
  next =>
    split
    next => exact ((raise_keeps (.echo c) s).trans (armDeadline_quiet _).keeps).trans (goAt_quiet _ _).keeps
    next hnew =>
      have hinsert := keySet_keeps (slotOf 0#32 s) (.inr (not_mem_eKeys hnew))
      split
      next => exact (hinsert.trans (armDeadline_quiet _).keeps).trans (goAt_quiet _ _).keeps
      next => exact (raise_keeps (.keysFull c) s).trans (goAt_quiet _ _).keeps

/-- A release empties the slot of its code, if there is one (47 R167). -/
theorem envRelease_keeps (c : Code) (mods : Byte) (s : State) : Keeps s (envRelease c mods s) := by
  unfold envRelease
  split
  next => exact (keySet_keeps _ (.inl rfl)).trans (goAt_quiet _ _).keeps
  next => exact (raise_keeps (.releaseNotFound c) s).trans (goAt_quiet _ _).keeps

/-- The first part of the handling of a triple (47 R165). -/
theorem envHandle_keeps (p : EnvParams) (mods : Byte) (c : Code) (ev : KeyEvent) (s : State) :
    Keeps s (envHandle p mods c ev s) := by
  cases ev with
  | press => exact envPress_keeps p c mods s
  | release => exact envRelease_keeps c mods s
  | none => exact (goAt_quiet _ s).keeps

/-- The end of the handling of a triple (47 R165). -/
theorem envChanged_keeps (p : EnvParams) (mods : Byte) (changed : Bool) (s : State) :
    Keeps s (envChanged p mods changed s) := by
  unfold envChanged
  split
  next => exact (Quiet.keeps (t := { s with ePrevmods := mods }) rfl).trans (envEmit_keeps p mods _)
  next => exact (goAt_quiet _ s).keeps

/-- The safety check empties the slots or changes none (47 R170). -/
theorem safetyCheck_keeps (s : State) : Keeps s (safetyCheck s) := by
  unfold safetyCheck
  split
  next => exact Quiet.keeps rfl
  next =>
    split
    next => exact Quiet.keeps rfl
    next =>
      split
      next => exact Quiet.keeps rfl
      next =>
        split
        next => exact (clearKeys_keeps s).trans (Quiet.keeps rfl)
        next => exact Quiet.keeps rfl

/-- Every action of the environment keeps the invariant and takes back no output (47 R164 to R170). -/
theorem envAct_keeps (p : EnvParams) (s : State) : Keeps s (envAct p s) := by
  unfold envAct
  split
  next => exact envHandle_keeps p _ _ _ s
  next => exact envChanged_keeps p _ _ s
  next => exact (Quiet.keeps (t := { s with ePrevmods := 0 }) rfl).trans (envEmit_keeps p 0 _)
  next => exact safetyCheck_keeps s
  next => exact Keeps.refl s

/-! ## The step -/

/-- MAIN_PC's move to the next label is quiet (10 R53). -/
theorem settle_quiet (s : State) : Quiet s (settle s) := by
  unfold settle
  split <;> rfl

/-- `call SET_LEDS` leaves its bytes to be sent, and is quiet (47 R163). -/
theorem callSetLeds_quiet (r : Result) (t : State) : Quiet t (callSetLeds r t) := by
  cases r <;> rfl

/-- `call SEND(0xFE)` leaves its byte to be sent, and is quiet (47 R163). -/
theorem callResend_quiet (r : Result) (t : State) : Quiet t (callResend r t) := by
  cases r <;> rfl

/-- The choice whether a popped byte is decoded is quiet (47 R163). -/
theorem afterPop_quiet (r : Result) (t : State) : Quiet t (afterPop r t) := by
  unfold afterPop
  repeat' split
  all_goals rfl

/-- The choice to handle a decoded triple is quiet (47 R163). -/
theorem afterDecode_quiet (r : Result) (t : State) : Quiet t (afterDecode r t) := by
  cases r <;> rfl

/-- What follows the first line of a label is quiet (47 R163, 70 R190). -/
theorem afterFirstLine_quiet (l : MainLabel) (t : State) : Quiet t (afterFirstLine l t) := by
  cases l with
  | bootEnter | bootReset | bootWaitBat | bootScanset | bootLeave | lSafety => rfl
  | lResend => exact callResend_quiet _ t
  | lPop => exact afterPop_quiet _ t
  | lService | lLed => exact callSetLeds_quiet _ t

/-- What follows a line is quiet (47 R163 to R170). -/
theorem afterLine_quiet (s t : State) : Quiet t (afterLine s t) := by
  unfold afterLine
  split
  next => exact afterFirstLine_quiet _ t
  next => exact afterDecode_quiet _ t
  next => split <;> rfl
  next => exact handled_quiet t
  next => rfl
  next => rfl

/-- The move of the main context's position after an operation it issued is quiet (log 13). -/
theorem mainAfter_quiet (s t : State) : Quiet t (mainAfter s t) := by
  unfold mainAfter
  split
  next =>
    split
    next => rfl
    next => exact afterLine_quiet s t
  next => rfl

/-- An operation and the move of the main position after it. -/
theorem runOp_keeps {i : Instr} {s u : State} (h : runOp i s = .next u) : Keeps s u := by
  obtain ⟨t, ht, hadv⟩ := andThen_next.mp h
  cases hadv
  refine ((exec_keeps ht).trans ?_).trans (settle_quiet _).keeps
  split
  next => exact (mainAfter_quiet s t).keeps
  next => exact Keeps.refl t

/-- A turn of the main context (42 R106, 47 R163). -/
theorem mainTurn_keeps {s t : State} (h : mainTurn s = .next t) : Keeps s t := by
  unfold mainTurn at h
  split at h
  next => exact runOp_keeps h
  next => cases h; exact (envAct_keeps Config.env s).trans (settle_quiet _).keeps
  next => cases h; exact Keeps.refl s

/-- An offered operation (30 R78). -/
theorem offerTurn_keeps {o : Offer} {s t : State} (h : offerTurn o s = .next t) : Keeps s t := by
  unfold offerTurn at h
  split at h
  next => exact runOp_keeps h
  next => cases h

/-- Every step keeps the invariant and takes back no output (20 R69). -/
theorem step_keeps {s t : State} (h : step s = .next t) : Keeps s t := by
  unfold step takeTurn at h
  split at h
  next => exact mainTurn_keeps h
  next rest _ => exact (Quiet.keeps (t := { s with input := rest }) rfl).trans (mainTurn_keeps h)
  next rest _ => exact (Quiet.keeps (t := { s with input := rest }) rfl).trans (offerTurn_keeps h)

/-- Settles O52: the step is made of operations each of which keeps the invariant. -/
theorem stepKeepsTheInvariant : Obligations.StepKeepsTheInvariant := fun _ _ hinv h => (step_keeps h).inv hinv

end Sys2Proof.Machine

/-! One step of the interleaving (20_memory R69): the equation of each kind of turn, the offered operation and the main context's
own. -/

namespace Sys2Proof.Machine

/-! ## An offered operation -/

/-- With an offer first in the input, the step is that offer's turn, in the state without it (20 R69). -/
theorem step_of_offer {s : State} {o : Offer} {rest : List Turn} (h : s.input = .offer o :: rest) :
    step s = offerTurn o { s with input := rest } := by
  simp only [step, takeTurn, h]

/-- An offer that decodes runs its instruction (30 R78). -/
theorem offerTurn_of_decode {s : State} {o : Offer} {i : Instr} (h : decode s.kMode s.kP2 o = some i) :
    offerTurn o s = runOp i s := by
  simp only [offerTurn, fetch, h]

/-- Settles O8: taking the offer off the input leaves the selector, so the offer still decodes to the same instruction. -/
theorem stepRunsDecodedInstruction : Obligations.StepRunsDecodedInstruction := by
  intro s o rest i hin hdec u
  have hdec_u : decode u.kMode u.kP2 o = some i := hdec
  calc step s = offerTurn o u := step_of_offer hin
    _ = runOp i u := offerTurn_of_decode hdec_u

/-! ## The main context's own turn -/

/-- An operation that the main context was about to issue moves its position on (log 13). -/
theorem advance_of_mainNext {i : Instr} {s : State} (h : mainNext s = .op i) (t : State) :
    advance i s t = settle (mainAfter s t) := by
  rw [advance, if_pos h]

/-- The operation that the main context issues, with its move of the position (log 13). -/
theorem runOp_of_mainNext {i : Instr} {s : State} (h : mainNext s = .op i) :
    runOp i s = andThen (exec i s) fun t => .next (settle (mainAfter s t)) := by
  simp only [runOp, advance_of_mainNext h]

/-- The main context issues the operation it is about to (42 R106, 47 R163). -/
theorem mainTurn_of_op {i : Instr} {s : State} (h : mainNext s = .op i) : mainTurn s = runOp i s := by
  simp only [mainTurn, h]

/-- Between operations the environment acts (47 R163). -/
theorem mainTurn_of_env {s : State} (h : mainNext s = .env) : mainTurn s = .next (settle (envAct Config.env s)) := by
  simp only [mainTurn, h]

/-- A wait for the oracle changes nothing (42 R106, log 14). -/
theorem mainTurn_of_wait {s : State} (h : mainNext s = .wait) : mainTurn s = .next s := by
  simp only [mainTurn, h]

/-- Settles O9: the turn left to the main context, in each case of its next action. -/
theorem stepIsMainContextsTurn : Obligations.StepIsMainContextsTurn := by
  intro s hin
  rw [step_of_no_input hin]
  exact ⟨fun i hop => (mainTurn_of_op hop).trans (runOp_of_mainNext hop), mainTurn_of_env, mainTurn_of_wait⟩

end Sys2Proof.Machine

/-! The encoding (30_encoding R74 to R83): the row a scan byte selects, what the decoder reads from the encoder's words, and what it
reads from any word. -/

namespace Sys2Proof

open Sys2Proof.Machine

/-! ## What an offer spells -/

/-- The offer o, in the selector (k, p2), is a spelling of i: i is well formed and stands in the selector, and its encoding is o,
but for the report bus where i reads none. -/
structure Spells (k : KMode) (p2 : Bool) (o : Offer) (i : Instr) : Prop where
  wf : i.wf = true
  selector : selects i k p2 = true
  fmt : formatOf i = o.fmt
  word : wordOf i = o.word
  rbus : ∀ len r, i = .report len r → r = o.rbus

/-! ## Scan bytes -/

/-- The final bytes of Key, one by one (30 R79). -/
theorem isKeyPlain_iff (b : Byte) :
    isKeyPlain b = true ↔ b ≠ 0x00#8 ∧ b ≠ 0xF0#8 ∧ b ≠ 0xE0#8 ∧ b ≠ 0xE1#8 ∧ ¬ (keyModBit b).isSome = true := by
  simp [isKeyPlain, isPrefix, Config.pfxBreak, Config.pfxExt, Config.pfxExt2, and_assoc]

/-- The final bytes of ExtendedKey, one by one (30 R79). -/
theorem isExtPlain_iff (b : Byte) :
    isExtPlain b = true ↔ b ≠ 0x00#8 ∧ b ≠ 0xF0#8 ∧ b ≠ 0xE0#8 ∧ b ≠ 0xE1#8 ∧ b ≠ 0x12#8 ∧ b ≠ 0x59#8 ∧
      ¬ (extModBit b).isSome = true := by
  simp [isExtPlain, isPrefix, isExtDiscard, Config.pfxBreak, Config.pfxExt, Config.pfxExt2, and_assoc]

/-- The bytes of ExtendedKey2 that are neither 0x00 nor 0xF0, 0xE0 or 0xE1 (30 R79). -/
theorem isExt2Other_iff (b : Byte) :
    isExt2Other b = true ↔ b ≠ 0x00#8 ∧ b ≠ 0xF0#8 ∧ b ≠ 0xE0#8 ∧ b ≠ 0xE1#8 := by
  simp [isExt2Other, isPrefix, Config.pfxBreak, Config.pfxExt, Config.pfxExt2, and_assoc]

/-- The bytes with a bit in Key's modifier table. -/
theorem keyModBit_isSome_iff (b : Byte) :
    (keyModBit b).isSome = true ↔ b = 0x14#8 ∨ b = 0x12#8 ∨ b = 0x11#8 ∨ b = 0x59#8 := by
  unfold keyModBit
  split_ifs <;> simp_all

/-- The bytes with a bit in ExtendedKey's modifier table. -/
theorem extModBit_isSome_iff (b : Byte) :
    (extModBit b).isSome = true ↔ b = 0x14#8 ∨ b = 0x11#8 ∨ b = 0x1F#8 ∨ b = 0x27#8 := by
  unfold extModBit
  split_ifs <;> simp_all

/-- The rows of Command. -/
theorem scanRow_command (p2 : Bool) (b : Byte) : scanRow .command p2 b = .scanCommand b := rfl

/-- The rows of Key. -/
theorem scanRow_key (p2 : Bool) (b : Byte) : scanRow .key p2 b =
    if b = 0x00#8 then .scanZero else if b = 0xF0#8 then .scanBreakF0 else if b = 0xE0#8 then .scanExtE0
    else if b = 0xE1#8 then .scanPauseE1 else if (keyModBit b).isSome then .scanKeyMod b else .scanKeyPlain b := rfl

/-- The rows of ExtendedKey. -/
theorem scanRow_extendedKey (p2 : Bool) (b : Byte) : scanRow .extendedKey p2 b =
    if b = 0x00#8 then .scanZero else if b = 0xF0#8 then .scanBreakF0 else if b = 0xE0#8 then .scanExtE0
    else if b = 0xE1#8 then .scanPauseE1 else if b = 0x12#8 then .scanExtDiscard else if b = 0x59#8 then .scanExtDiscard59
    else if (extModBit b).isSome then .scanExtMod b else .scanExtPlain b := rfl

/-- The rows of ExtendedKey2. -/
theorem scanRow_extendedKey2 (p2 : Bool) (b : Byte) : scanRow .extendedKey2 p2 b =
    if b = 0x00#8 then .scanZero else if b = 0xF0#8 then .scanBreakF0 else if b = 0xE0#8 then .scanExt2Prefix false
    else if b = 0xE1#8 then .scanExt2Prefix true else if b = 0x14#8 ∧ p2 = false then .scanExt2Byte14
    else if b = 0x77#8 ∧ p2 = true then .scanExt2Byte77 else .scanExt2Other b := rfl

/-- The row that a byte selects spells that byte: it is a row of the byte map, well formed, in its selector (30 R79). -/
theorem scanRow_spells (k : KMode) (p2 : Bool) (b : Byte) (r : Bytes8) :
    Spells k p2 ⟨.scanByte, byteWord b, r⟩ (scanRow k p2 b) := by
  cases k with
  | command => exact ⟨rfl, rfl, rfl, rfl, nofun⟩
  | key =>
    rw [scanRow_key]
    split_ifs with h0 hF0 hE0 hE1 hmod
    case pos | pos | pos | pos => subst b; exact ⟨rfl, rfl, rfl, rfl, nofun⟩
    · exact ⟨hmod, rfl, rfl, rfl, nofun⟩
    · exact ⟨(isKeyPlain_iff b).mpr ⟨h0, hF0, hE0, hE1, hmod⟩, rfl, rfl, rfl, nofun⟩
  | extendedKey =>
    rw [scanRow_extendedKey]
    split_ifs with h0 hF0 hE0 hE1 h12 h59 hmod
    case pos | pos | pos | pos | pos | pos => subst b; exact ⟨rfl, rfl, rfl, rfl, nofun⟩
    · exact ⟨hmod, rfl, rfl, rfl, nofun⟩
    · exact ⟨(isExtPlain_iff b).mpr ⟨h0, hF0, hE0, hE1, h12, h59, hmod⟩, rfl, rfl, rfl, nofun⟩
  | extendedKey2 =>
    rw [scanRow_extendedKey2]
    split_ifs with h0 hF0 hE0 hE1 h14 h77
    case pos | pos | pos | pos => subst b; exact ⟨rfl, rfl, rfl, rfl, nofun⟩
    · obtain ⟨rfl, rfl⟩ := h14; exact ⟨rfl, rfl, rfl, rfl, nofun⟩
    · obtain ⟨rfl, rfl⟩ := h77; exact ⟨rfl, rfl, rfl, rfl, nofun⟩
    · have hsel : selects (.scanExt2Other b) .extendedKey2 p2 = true := by
        simpa [selects, imp_iff_not_or] using And.intro h14 h77
      exact ⟨(isExt2Other_iff b).mpr ⟨h0, hF0, hE0, hE1⟩, hsel, rfl, rfl, nofun⟩

/-- A well-formed row of the byte map, in its selector, is the row that its own byte selects (30 R79). -/
theorem scanRow_of_wf {i : Instr} {k : KMode} {p2 : Bool} (hfmt : formatOf i = .scanByte) (hwf : i.wf = true)
    (hsel : selects i k p2 = true) : scanRow k p2 ((wordOf i).extractLsb' 0 8) = i := by
  cases i with
  | scanZero | scanBreakF0 | scanExtE0 | scanPauseE1 | scanExtDiscard | scanExtDiscard59 =>
    cases k <;> cases hsel
    all_goals rfl
  | scanExt2Prefix x =>
    obtain rfl : k = .extendedKey2 := by simpa [selects] using hsel
    cases x <;> rfl
  | scanExt2Byte14 =>
    obtain ⟨rfl, rfl⟩ : k = .extendedKey2 ∧ p2 = false := by simpa [selects] using hsel
    rfl
  | scanExt2Byte77 =>
    obtain ⟨rfl, rfl⟩ : k = .extendedKey2 ∧ p2 = true := by simpa [selects] using hsel
    rfl
  | scanExt2Other b =>
    obtain ⟨⟨rfl, h14⟩, h77⟩ : (k = .extendedKey2 ∧ ¬(b = 0x14#8 ∧ p2 = false)) ∧ ¬(b = 0x77#8 ∧ p2 = true) := by
      simpa [selects, imp_iff_not_or] using hsel
    obtain ⟨h0, hF0, hE0, hE1⟩ := (isExt2Other_iff b).mp hwf
    rw [wordOf, byteWord_low, scanRow_extendedKey2, if_neg h0, if_neg hF0, if_neg hE0, if_neg hE1, if_neg h14, if_neg h77]
  | scanExtMod b =>
    obtain rfl : k = .extendedKey := by simpa [selects] using hsel
    obtain rfl | rfl | rfl | rfl := (extModBit_isSome_iff b).mp hwf <;> rfl
  | scanExtPlain b =>
    obtain rfl : k = .extendedKey := by simpa [selects] using hsel
    obtain ⟨h0, hF0, hE0, hE1, h12, h59, hmod⟩ := (isExtPlain_iff b).mp hwf
    rw [wordOf, byteWord_low, scanRow_extendedKey, if_neg h0, if_neg hF0, if_neg hE0, if_neg hE1, if_neg h12, if_neg h59,
      if_neg hmod]
  | scanKeyMod b =>
    obtain rfl : k = .key := by simpa [selects] using hsel
    obtain rfl | rfl | rfl | rfl := (keyModBit_isSome_iff b).mp hwf <;> rfl
  | scanKeyPlain b =>
    obtain rfl : k = .key := by simpa [selects] using hsel
    obtain ⟨h0, hF0, hE0, hE1, hmod⟩ := (isKeyPlain_iff b).mp hwf
    rw [wordOf, byteWord_low, scanRow_key, if_neg h0, if_neg hF0, if_neg hE0, if_neg hE1, if_neg hmod]
  | scanCommand b =>
    obtain rfl : k = .command := by simpa [selects] using hsel
    rw [wordOf, byteWord_low, scanRow_command]
  | _ => cases hfmt

/-- The upper byte of a scan row's word is clear (30 R79). -/
theorem wordOf_scanByte_high {i : Instr} (hfmt : formatOf i = .scanByte) : (wordOf i).extractLsb' 8 8 = 0#8 := by
  cases i with
  | scanZero | scanBreakF0 | scanExtE0 | scanPauseE1 | scanExtDiscard | scanExtDiscard59 | scanExt2Byte14
  | scanExt2Byte77 => decide
  | scanExt2Prefix | scanExt2Other | scanExtMod | scanExtPlain | scanKeyMod | scanKeyPlain | scanCommand =>
    exact byteWord_high _
  | _ => cases hfmt

/-! ## Fields of a word -/

/-- A one-bit field is the bit. -/
theorem extract_bit {n : Nat} (w : BitVec n) (k : Nat) : w.extractLsb' k 1 = BitVec.ofBool (w.getLsbD k) := by
  ext i hi
  obtain rfl : i = 0 := by omega
  simp

/-- A field and the field above it are one field. -/
theorem extract_append {width : Nat} {w : BitVec width} {m n : Nat} {x : BitVec m} {y : BitVec n} (i : Nat)
    (hx : w.extractLsb' (i + n) m = x) (hy : w.extractLsb' i n = y) : w.extractLsb' i (m + n) = x ++ y := by
  subst hx hy
  exact (BitVec.extractLsb'_append_extractLsb'_eq_extractLsb' rfl).symm

/-- A word is an operation word when its Z bits are clear (30 R76). -/
theorem opWord_fields {w : BitVec 16} (hz : w.extractLsb' 8 3 = 0#3) :
    opWord (w.extractLsb' 11 5) (w.extractLsb' 0 8) = w :=
  (extract_append 0 (extract_append 8 rfl hz) rfl).symm.trans BitVec.extractLsb'_eq_self

/-- A word is its upper and its lower byte. -/
theorem append_bytes {w : BitVec 16} {hi : Byte} (h : w.extractLsb' 8 8 = hi) : hi ++ w.extractLsb' 0 8 = w :=
  (extract_append 0 h rfl).symm.trans BitVec.extractLsb'_eq_self

/-- A sequence of the wire as a word: the five bits above the stop bit, the stop bit, parity, data and start bit (30 R74, R75). -/
def lineWord (h : BitVec 5) (d : Byte) (p : Bool) : BitVec 16 := h ++ 1#1 ++ BitVec.ofBool p ++ d ++ 0#1

/-- The word of a device-to-host frame (30 R74). -/
theorem wordOf_frameRx (d : Byte) (p : Bool) : wordOf (.frameRx d p) = lineWord 0#5 d p := rfl

/-- The word of a host-to-device sequence, with its acknowledge level (30 R75). -/
theorem wordOf_frameTx (d : Byte) (p a : Bool) : wordOf (.frameTx d p a) = lineWord (0#4 ++ BitVec.ofBool a) d p := rfl

section
variable (h : BitVec 5) (d : Byte) (p : Bool)

/-- The start bit. -/
theorem lineWord_start : (lineWord h d p).getLsbD 0 = false :=
  append_bit_low (h ++ 1#1 ++ BitVec.ofBool p ++ d) 0#1 0 one_pos

/-- The data bits. -/
theorem lineWord_data : (lineWord h d p).extractLsb' 1 8 = d :=
  (append_extract_high (h ++ 1#1 ++ BitVec.ofBool p ++ d) 0#1 0 8).trans (append_extract_low _ d)

/-- The bits above data and start bit. -/
theorem lineWord_bit_high (i : Nat) : (lineWord h d p).getLsbD (1 + (8 + i)) = (h ++ 1#1 ++ BitVec.ofBool p).getLsbD i :=
  (append_bit_high (h ++ 1#1 ++ BitVec.ofBool p ++ d) 0#1 (8 + i)).trans (append_bit_high _ d i)

/-- The fields above data and start bit. -/
theorem lineWord_extract_high (i n : Nat) :
    (lineWord h d p).extractLsb' (1 + (8 + i)) n = (h ++ 1#1 ++ BitVec.ofBool p).extractLsb' i n :=
  (append_extract_high (h ++ 1#1 ++ BitVec.ofBool p ++ d) 0#1 (8 + i) n).trans (append_extract_high _ d i n)

/-- The parity bit. -/
theorem lineWord_parity : (lineWord h d p).getLsbD 9 = p := by
  rw [lineWord_bit_high h d p 0, append_bit_low _ _ 0 one_pos, BitVec.getLsbD_ofBool]
  simp

/-- The stop bit. -/
theorem lineWord_stop : (lineWord h d p).getLsbD 10 = true := by
  rw [lineWord_bit_high h d p 1, append_bit_high _ _ 0, append_bit_low _ _ 0 one_pos]
  rfl

/-- The bit above the stop bit: a host sequence's acknowledge level. -/
theorem lineWord_ackBit : (lineWord h d p).getLsbD 11 = h.getLsbD 0 := by
  rw [lineWord_bit_high h d p 2, append_bit_high _ _ 1, append_bit_high _ _ 0]

/-- The bits above the stop bit. -/
theorem lineWord_high5 : (lineWord h d p).extractLsb' 11 5 = h := by
  rw [lineWord_extract_high h d p 2, append_extract_high _ _ 1, append_extract_high _ _ 0]
  exact BitVec.extractLsb'_eq_self

/-- The bits above the acknowledge level. -/
theorem lineWord_high4 : (lineWord h d p).extractLsb' 12 4 = h.extractLsb' 1 4 := by
  rw [lineWord_extract_high h d p 3, append_extract_high _ _ 2, append_extract_high _ _ 1]
end

/-- A word whose start and stop bits are legal is the sequence of its fields (30 R74, R75). -/
theorem lineWord_fields {w : BitVec 16} {h : BitVec 5} (hhigh : w.extractLsb' 11 5 = h) (hstop : w.getLsbD 10 = true)
    (hstart : w.getLsbD 0 = false) : lineWord h (w.extractLsb' 1 8) (w.getLsbD 9) = w := by
  have hstop' : w.extractLsb' 10 1 = 1#1 := by rw [extract_bit, hstop]; rfl
  have hstart' : w.extractLsb' 0 1 = 0#1 := by rw [extract_bit, hstart]; rfl
  have h9 := extract_append 9 (extract_append 10 hhigh hstop') (extract_bit w 9)
  have h1 := extract_append (n := 8) 1 h9 rfl
  exact (extract_append 0 h1 hstart').symm.trans BitVec.extractLsb'_eq_self

/-! ## Operation words -/

/-- The value of a word's upper field. -/
theorem extract_high_toNat {width : Nat} (w : BitVec width) (i n : Nat) (h : i + n = width) :
    (w.extractLsb' i n).toNat = w.toNat / 2 ^ i := by
  have hlt : w.toNat / 2 ^ i < 2 ^ n := by
    rw [Nat.div_lt_iff_lt_mul (Nat.two_pow_pos i), ← Nat.pow_add, Nat.add_comm n i, h]
    exact w.isLt
  rw [BitVec.extractLsb'_toNat, Nat.shiftRight_eq_div_pow, Nat.mod_eq_of_lt hlt]

/-- A word of RESERVED_1A_1B has OPSEL 0x1A or 0x1B (30 R78). -/
theorem firstReserved_iff (w : BitVec 16) : w.extractLsb' 12 4 = 0b1101#4 ↔ w.toNat / 4096 = 0xD := by
  rw [← BitVec.toNat_inj, extract_high_toNat w 12 4 rfl]
  rfl

/-- A word of RESERVED_1C_1F has OPSEL 0x1C to 0x1F (30 R78). -/
theorem secondReserved_iff (w : BitVec 16) : w.extractLsb' 13 3 = 0b111#3 ↔ w.toNat / 8192 = 7 := by
  rw [← BitVec.toNat_inj, extract_high_toNat w 13 3 rfl]
  rfl

/-- No word is in both reserved rows. -/
theorem not_firstReserved_of_secondReserved {w : BitVec 16} (h : w.extractLsb' 13 3 = 0b111#3) :
    w.extractLsb' 12 4 ≠ 0b1101#4 := by
  rw [secondReserved_iff] at h
  rw [Ne, firstReserved_iff]
  omega

/-- An operation without a payload is read from payload 0 alone (30 R77). -/
theorem decodeNoPay_eq_some {pay : Byte} {i j : Instr} : decodeNoPay pay i = some j ↔ pay = 0#8 ∧ i = j := by
  unfold decodeNoPay
  split_ifs with h <;> simp [h]

/-- EDGE is read from its level (30 R77). -/
theorem decodeEdge_eq_some {pay : Byte} {i : Instr} :
    decodeEdge pay = some i ↔ ∃ d, pay = 0#7 ++ BitVec.ofBool d ∧ i = .edge d := by
  constructor
  · intro h
    unfold decodeEdge at h
    split_ifs at h with hhigh
    cases h
    exact ⟨_, BitVec.extractLsb'_eq_self.symm.trans (extract_append 0 hhigh (extract_bit pay 0)), rfl⟩
  · rintro ⟨d, rfl, rfl⟩
    cases d <;> rfl

/-- REPORT is read from a length of 1 to 8 (30 R77, R78). -/
theorem decodeReport_eq_some {pay : Byte} {r : Bytes8} {i : Instr} :
    decodeReport pay r = some i ↔ ∃ len, validLen len = true ∧ pay = 0#4 ++ len ∧ i = .report len r := by
  constructor
  · intro h
    unfold decodeReport at h
    split_ifs at h with hvalid
    obtain ⟨hhigh, hlen⟩ := hvalid
    cases h
    exact ⟨_, hlen, BitVec.extractLsb'_eq_self.symm.trans (extract_append (m := 4) (n := 4) 0 hhigh rfl), rfl⟩
  · rintro ⟨len, hlen, rfl, rfl⟩
    have hhigh : (0#4 ++ len).extractLsb' 4 4 = 0#4 := append_extract_high _ len 0 4
    have hlow : (0#4 ++ len).extractLsb' 0 4 = len := append_extract_low _ len
    change (if (0#4 ++ len).extractLsb' 4 4 = 0#4 ∧ validLen ((0#4 ++ len).extractLsb' 0 4) = true then
      some (Instr.report ((0#4 ++ len).extractLsb' 0 4) r) else none) = _
    rw [hlow, if_pos ⟨hhigh, hlen⟩]

/-- An operation word is read by its OPSEL (30 R76). -/
theorem decodeOp16_opWord {k : BitVec 5} (hk : k.toNat < 0x1A) (b : Byte) (r : Bytes8) :
    decodeOp16 (opWord k b) r = decodeOpsel k.toNat b r := by
  have hfirst : k.extractLsb' 1 4 ≠ 0b1101#4 ∧ k.extractLsb' 2 3 ≠ 0b111#3 := by revert k; decide
  obtain ⟨h1A, h1C⟩ := hfirst
  simp [decodeOp16, h1A, h1C]

/-- What an OPSEL reads from a payload is spelled by the two (30 R77). -/
theorem decodeOpsel_spells {n : Nat} {pay : Byte} {r : Bytes8} {i : Instr} (h : decodeOpsel n pay r = some i) (k : KMode)
    (p2 : Bool) : Spells k p2 ⟨.op16, opWord (BitVec.ofNat 5 n) pay, r⟩ i := by
  unfold decodeOpsel at h
  split at h
  case h_1 =>
    obtain ⟨d, rfl, rfl⟩ := decodeEdge_eq_some.mp h
    exact ⟨rfl, rfl, rfl, rfl, nofun⟩
  case h_21 =>
    obtain ⟨len, hlen, rfl, rfl⟩ := decodeReport_eq_some.mp h
    exact ⟨hlen, rfl, rfl, rfl, by rintro _ _ ⟨⟩; rfl⟩
  case h_4 | h_11 | h_14 | h_26 => cases h; exact ⟨rfl, rfl, rfl, rfl, nofun⟩
  case h_27 => cases h
  all_goals
    obtain ⟨rfl, rfl⟩ := decodeNoPay_eq_some.mp h
    exact ⟨rfl, rfl, rfl, rfl, nofun⟩

/-- Whatever is read from an operation word is spelled by it (30 R76 to R78). -/
theorem decodeOp16_spells {w : BitVec 16} {r : Bytes8} {i : Instr} (h : decodeOp16 w r = some i) (k : KMode) (p2 : Bool) :
    Spells k p2 ⟨.op16, w, r⟩ i := by
  unfold decodeOp16 at h
  split_ifs at h with h1A h1C hz
  · cases h
    exact ⟨rfl, rfl, rfl, (extract_append 0 h1A rfl).symm.trans BitVec.extractLsb'_eq_self, nofun⟩
  · cases h
    exact ⟨rfl, rfl, rfl, (extract_append 0 h1C rfl).symm.trans BitVec.extractLsb'_eq_self, nofun⟩
  · have hspells := decodeOpsel_spells h k p2
    rwa [BitVec.ofNat_toNat, BitVec.setWidth_eq, opWord_fields hz] at hspells

/-! ## The round trip -/

/-- SET_LEDS is read from its first byte (30 R82). -/
theorem decodeCmd_of_high {w : BitVec 16} (h : w.extractLsb' 8 8 = 0xED#8) :
    decodeCmd w = some (.cmdSetLeds (w.extractLsb' 0 8)) := by
  have hne : ∀ v : BitVec 16, v.extractLsb' 8 8 ≠ 0xED#8 → w ≠ v := fun v hv e => hv (e ▸ h)
  rw [decodeCmd, if_neg (hne _ (by decide)), if_neg (hne _ (by decide)), if_neg (hne _ (by decide)), if_pos h]

/-- The decoder reads the encoder's word of a scan row in the row's selector (30 R79). -/
theorem decode_encode_scanByte {i : Instr} {k : KMode} {p2 : Bool} (hfmt : formatOf i = .scanByte) (hwf : i.wf = true)
    (hsel : selects i k p2 = true) : decode k p2 (encode i) = some i := by
  rw [decode, encode, hfmt]
  change decodeScan k p2 (wordOf i) = some i
  rw [decodeScan, if_pos (wordOf_scanByte_high hfmt), scanRow_of_wf hfmt hwf hsel]

/-- Settles O1: format by format, the decoder finds in the encoder's word the fields that were put there. -/
theorem decodeOfEncode : Obligations.DecodeOfEncode := by
  intro i k p2 hwf hsel
  cases i with
  | edge d => exact (decodeOp16_opWord (by decide) _ _).trans (decodeEdge_eq_some.mpr ⟨d, rfl, rfl⟩)
  | report len r => exact (decodeOp16_opWord (by decide) _ _).trans (decodeReport_eq_some.mpr ⟨len, hwf, rfl, rfl⟩)
  | reserved1A1B x =>
    have hrow : (0b1101#4 ++ x).extractLsb' 12 4 = 0b1101#4 := append_extract_high _ x 0 4
    change decodeOp16 (0b1101#4 ++ x) _ = _
    rw [decodeOp16, if_pos hrow, append_extract_low]
  | reserved1C1F x =>
    have hrow : (0b111#3 ++ x).extractLsb' 13 3 = 0b111#3 := append_extract_high _ x 0 3
    have hne : (0b111#3 ++ x).extractLsb' 12 4 ≠ 0b1101#4 := not_firstReserved_of_secondReserved hrow
    change decodeOp16 (0b111#3 ++ x) _ = _
    rw [decodeOp16, if_neg hne, if_pos hrow, append_extract_low]
  | frameRx d p =>
    change decodeFrame11 (wordOf (.frameRx d p)) = _
    rw [wordOf_frameRx, decodeFrame11, if_pos ⟨lineWord_high5 _ d p, lineWord_stop _ d p, lineWord_start _ d p⟩, lineWord_data,
      lineWord_parity]
  | frameTx d p a =>
    change decodeHostSeq11 (wordOf (.frameTx d p a)) = _
    have hhigh : (0#4 ++ BitVec.ofBool a).extractLsb' 1 4 = 0#4 := append_extract_high _ (BitVec.ofBool a) 0 4
    have hack : (0#4 ++ BitVec.ofBool a).getLsbD 0 = a := by cases a <;> rfl
    rw [wordOf_frameTx, decodeHostSeq11, if_pos ⟨(lineWord_high4 _ d p).trans hhigh, lineWord_stop _ d p, lineWord_start _ d p⟩,
      lineWord_data, lineWord_parity, lineWord_ackBit, hack]
  | cmdSetLeds v =>
    have hhigh : (0xED#8 ++ v).extractLsb' 8 8 = 0xED#8 := append_extract_high _ v 0 8
    exact (decodeCmd_of_high hhigh).trans (by rw [append_extract_low])
  | cmdReset | cmdScanset2 | cmdResend | respAck | respBatOk | respZero => rfl
  | scanZero | scanBreakF0 | scanExtE0 | scanPauseE1 | scanExt2Prefix | scanExt2Byte14 | scanExt2Byte77 | scanExt2Other
  | scanExtDiscard | scanExtDiscard59 | scanExtMod | scanExtPlain | scanKeyMod | scanKeyPlain | scanCommand =>
    exact decode_encode_scanByte rfl hwf hsel
  | _ => exact decodeOp16_opWord (by decide) _ _

/-- Whatever the decoder reads from an offer is spelled by it (30 R74 to R83). -/
theorem decode_spells {o : Offer} {k : KMode} {p2 : Bool} {i : Instr} (h : decode k p2 o = some i) : Spells k p2 o i := by
  obtain ⟨fmt, w, r⟩ := o
  cases fmt with
  | op16 => exact decodeOp16_spells h k p2
  | frame11 =>
    change decodeFrame11 w = some i at h
    unfold decodeFrame11 at h
    split_ifs at h with hline
    obtain ⟨hhigh, hstop, hstart⟩ := hline
    cases h
    exact ⟨rfl, rfl, rfl, (wordOf_frameRx _ _).trans (lineWord_fields hhigh hstop hstart), nofun⟩
  | hostSeq11 =>
    change decodeHostSeq11 w = some i at h
    unfold decodeHostSeq11 at h
    split_ifs at h with hline
    obtain ⟨hhigh, hstop, hstart⟩ := hline
    cases h
    have hhigh5 := extract_append 11 hhigh (extract_bit w 11)
    exact ⟨rfl, rfl, rfl, (wordOf_frameTx _ _ _).trans (lineWord_fields hhigh5 hstop hstart), nofun⟩
  | cmd =>
    change decodeCmd w = some i at h
    unfold decodeCmd at h
    split_ifs at h with hreset hresend hscanset hleds <;> cases h
    · exact ⟨rfl, rfl, rfl, hreset.symm, nofun⟩
    · exact ⟨rfl, rfl, rfl, hresend.symm, nofun⟩
    · exact ⟨rfl, rfl, rfl, hscanset.symm, nofun⟩
    · exact ⟨rfl, rfl, rfl, append_bytes hleds, nofun⟩
  | resp =>
    change decodeResp w = some i at h
    unfold decodeResp at h
    split_ifs at h with hack hbat hzero <;> cases h
    · exact ⟨rfl, rfl, rfl, hack.symm, nofun⟩
    · exact ⟨rfl, rfl, rfl, hbat.symm, nofun⟩
    · exact ⟨rfl, rfl, rfl, hzero.symm, nofun⟩
  | scanByte =>
    change decodeScan k p2 w = some i at h
    unfold decodeScan at h
    split_ifs at h with hhigh
    cases h
    have hspells := scanRow_spells k p2 (w.extractLsb' 0 8) r
    rwa [byteWord, append_bytes hhigh] at hspells

/-- Settles O2: format by format, the fields that the decoder read are all the bits of the word. -/
theorem decodedWordIsItsEncoding : Obligations.DecodedWordIsItsEncoding := by
  intro o k p2 i h
  obtain ⟨hwf, hsel, hfmt, hword, hrbus⟩ := decode_spells h
  exact ⟨hwf, hsel, hfmt, hword, hrbus⟩

/-- Settles O3: each word is the encoding of its instruction, and three words spell none. -/
theorem specWordsDecode : Obligations.SpecWordsDecode := by
  have hscan (k : KMode) (p2 : Bool) : decodeScan k p2 0x14 = some (scanRow k p2 0x14) := rfl
  exact ⟨⟨decodeOfEncode (.edge true) .key false rfl rfl, decodeOfEncode (.hostLed 0x02) .key false rfl rfl,
    decodeOfEncode (.send 0xED) .key false rfl rfl, decodeOfEncode (.decode 0x1C) .key false rfl rfl,
    decodeOfEncode (.report 8 Bytes8.zero) .key false rfl rfl, decodeOfEncode (.parity 0xFA) .key false rfl rfl,
    by decide, by decide, by decide⟩,
    ⟨decodeOfEncode (.frameRx 0x1C false) .key false rfl rfl, decodeOfEncode (.frameTx 0xED true false) .key false rfl rfl⟩,
    ⟨decodeOfEncode (.cmdSetLeds 0x02) .key false rfl rfl, decodeOfEncode .cmdScanset2 .key false rfl rfl,
      decodeOfEncode .respAck .key false rfl rfl⟩,
    hscan _ _, hscan _ _, hscan _ _, hscan _ _, hscan _ _⟩

/-! ## Invalid words -/

/-- The payloads that R78 rules out for an OPSEL below 0x1A. -/
def InvalidPay (opsel pay : Nat) : Prop :=
  (opsel = 0 ∧ 2 ≤ pay) ∨ (opsel = 0x14 ∧ (pay % 16 = 0 ∨ 8 < pay % 16 ∨ 16 ≤ pay)) ∨
    (opsel ∉ [0x00, 0x03, 0x0A, 0x0D, 0x14, 0x19] ∧ pay ≠ 0)

/-- An operation without a payload rules out every other payload (30 R78). -/
theorem decodeNoPay_eq_none {pay : Byte} {i : Instr} : decodeNoPay pay i = none ↔ pay.toNat ≠ 0 := by
  have hzero : pay.toNat ≠ 0 ↔ pay ≠ 0#8 := not_congr (BitVec.toNat_inj (y := 0#8))
  rw [hzero, decodeNoPay]
  split_ifs with h <;> simp [h]

/-- EDGE rules out a payload above its level (30 R78). -/
theorem decodeEdge_eq_none {pay : Byte} : decodeEdge pay = none ↔ 2 ≤ pay.toNat := by
  have hhigh : pay.extractLsb' 1 7 = 0#7 ↔ pay.toNat / 2 = 0 := by
    rw [← BitVec.toNat_inj, extract_high_toNat pay 1 7 rfl]
    rfl
  simp only [decodeEdge, hhigh, ite_eq_right_iff, reduceCtorEq, imp_false]
  omega

/-- REPORT rules out a length outside 1 to 8, and bits above it (30 R78). -/
theorem decodeReport_eq_none {pay : Byte} {r : Bytes8} :
    decodeReport pay r = none ↔ pay.toNat % 16 = 0 ∨ 8 < pay.toNat % 16 ∨ 16 ≤ pay.toNat := by
  have hhigh : pay.extractLsb' 4 4 = 0#4 ↔ pay.toNat / 16 = 0 := by
    rw [← BitVec.toNat_inj, extract_high_toNat pay 4 4 rfl]
    rfl
  have hlen : (pay.extractLsb' 0 4).toNat = pay.toNat % 16 := by simp
  simp only [decodeReport, hhigh, validLen, hlen, decide_eq_true_eq, ite_eq_right_iff, reduceCtorEq, imp_false]
  omega

/-- An OPSEL below 0x1A reads no operation exactly from the payloads that R78 rules out. -/
theorem decodeOpsel_eq_none {n : Nat} (hn : n < 0x1A) {pay : Byte} {r : Bytes8} :
    decodeOpsel n pay r = none ↔ InvalidPay n pay.toNat := by
  unfold decodeOpsel
  split
  case h_1 => simp [InvalidPay, decodeEdge_eq_none]
  case h_21 => simp [InvalidPay, decodeReport_eq_none]
  case h_4 | h_11 | h_14 | h_26 => simp [InvalidPay]
  case h_27 => interval_cases n <;> contradiction
  all_goals simp [InvalidPay, decodeNoPay_eq_none]

/-- A word with an OPSEL of 0x1A or above is one of the two reserved rows (30 R78). -/
theorem decodeOp16_reserved {w : BitVec 16} (h : 0x1A ≤ w.toNat / 2048) (r : Bytes8) :
    (∃ x, decodeOp16 w r = some (.reserved1A1B x)) ∨ ∃ x, decodeOp16 w r = some (.reserved1C1F x) := by
  have hw := w.isLt
  by_cases h1A : w.extractLsb' 12 4 = 0b1101#4
  · exact .inl ⟨_, if_pos h1A⟩
  · have h1C : w.extractLsb' 13 3 = 0b111#3 := by
      rw [firstReserved_iff] at h1A
      rw [secondReserved_iff]
      omega
    exact .inr ⟨_, (if_neg h1A).trans (if_pos h1C)⟩

/-- A word with an OPSEL below 0x1A is read by OPSEL and PAY when Z = 000, and else not at all (30 R76, R78). -/
theorem decodeOp16_of_opsel_lt {w : BitVec 16} (h : w.toNat / 2048 < 0x1A) (r : Bytes8) :
    decodeOp16 w r =
      if w.toNat / 256 % 8 = 0 then decodeOpsel (w.toNat / 2048) (w.extractLsb' 0 8) r else none := by
  have h1A : w.extractLsb' 12 4 ≠ 0b1101#4 := by rw [Ne, firstReserved_iff]; omega
  have h1C : w.extractLsb' 13 3 ≠ 0b111#3 := by rw [Ne, secondReserved_iff]; omega
  have hz : w.extractLsb' 8 3 = 0#3 ↔ w.toNat / 256 % 8 = 0 := by
    rw [← BitVec.toNat_inj, BitVec.extractLsb'_toNat, Nat.shiftRight_eq_div_pow]
    rfl
  rw [decodeOp16, if_neg h1A, if_neg h1C, extract_high_toNat w 11 5 rfl]
  simp only [hz]
  rfl

/-- The words below the reserved rows that spell no operation are those that R78 lists. -/
theorem decodeOp16_eq_none {w : BitVec 16} (h : w.toNat / 2048 < 0x1A) (r : Bytes8) :
    decodeOp16 w r = none ↔ w.toNat / 256 % 8 ≠ 0 ∨ InvalidPay (w.toNat / 2048) (w.toNat % 256) := by
  have hpay : (w.extractLsb' 0 8).toNat = w.toNat % 256 := by simp [BitVec.extractLsb'_toNat]
  rw [decodeOp16_of_opsel_lt h, ← hpay]
  split_ifs with hz <;> simp [hz, decodeOpsel_eq_none h]

/-- A word that reads as a reserved row has an OPSEL of 0x1A or above. -/
theorem opsel_of_reserved {w : BitVec 16} {r : Bytes8} {i : Instr} (h : decodeOp16 w r = some i)
    (hres : (∃ x, i = .reserved1A1B x) ∨ ∃ x, i = .reserved1C1F x) : 0x1A ≤ w.toNat / 2048 := by
  have hword : wordOf i = w := (decodeOp16_spells h .key false).word
  obtain ⟨x, rfl⟩ | ⟨x, rfl⟩ := hres
  · have hrow : w.extractLsb' 12 4 = 0b1101#4 := hword ▸ append_extract_high 0b1101#4 x 0 4
    rw [firstReserved_iff] at hrow
    omega
  · have hrow : w.extractLsb' 13 3 = 0b111#3 := hword ▸ append_extract_high 0b111#3 x 0 3
    rw [secondReserved_iff] at hrow
    omega

/-- A step that is offered a word of a reserved row refuses it by that name (30 R78). -/
theorem step_reserved {s : State} {w : BitVec 16} {r : Bytes8} {rest : List Turn}
    (hin : s.input = .offer ⟨.op16, w, r⟩ :: rest) (h : 0x1A ≤ w.toNat / 2048) : step s = .refused .reservedOpsel := by
  rw [step_of_offer hin]
  obtain ⟨x, hx⟩ | ⟨x, hx⟩ := decodeOp16_reserved h r
  · exact offerTurn_of_decode (i := .reserved1A1B x) hx
  · exact offerTurn_of_decode (i := .reserved1C1F x) hx

/-- A step that is offered a word that spells no operation refuses it by that name (30 R78). -/
theorem step_invalidWord {s : State} {o : Offer} {rest : List Turn} (hin : s.input = .offer o :: rest)
    (h : decode s.kMode s.kP2 o = none) : step s = .refused .invalidWord := by
  rw [step_of_offer hin]
  simp only [offerTurn, fetch, h]

/-- Settles O4: above OPSEL 0x19 every word is reserved, below it the decoder rejects exactly the words of R78. -/
theorem invalidOperationWords : Obligations.InvalidOperationWords := by
  refine ⟨fun x s => rfl, fun x s => rfl, ?_⟩
  intro w r opsel pay invalid
  refine ⟨fun hinv s rest hin => ?_, fun hval => ?_⟩
  · by_cases hres : 0x1A ≤ opsel
    · rw [if_pos hres]
      exact step_reserved hin hres
    · rw [if_neg hres]
      have hnone : decodeOp16 w r = none := (decodeOp16_eq_none (not_le.mp hres) r).mpr (hinv.resolve_left hres)
      exact step_invalidWord hin hnone
  · obtain ⟨hres, hval⟩ := not_or.mp hval
    have hsome : decodeOp16 w r ≠ none := fun hnone => hval ((decodeOp16_eq_none (not_le.mp hres) r).mp hnone)
    obtain ⟨i, hi⟩ := Option.ne_none_iff_exists'.mp hsome
    exact ⟨i, hi, (decodeOp16_spells hi .key false).wf, fun x hx => hres (opsel_of_reserved hi (.inl ⟨x, hx⟩)),
      fun x hx => hres (opsel_of_reserved hi (.inr ⟨x, hx⟩))⟩

end Sys2Proof

/-! The scan-code decoder (43_decoder): DECODE as the row its byte selects, the rows that give an event, and the sequences of bytes
that 30_encoding R80 lists. -/

namespace Sys2Proof.Machine

/-! ## DECODE in each mode -/

/-- DECODE in Key (43 R124). -/
theorem decodeByte_key {s : State} (h : s.kMode = .key) (b : Byte) : decodeByte b s =
    if b = 0x00#8 then scanZero s else if b = 0xF0#8 then scanBreak s else if b = 0xE0#8 then scanEnterExt s
    else if b = 0xE1#8 then scanEnterExt2 s
    else if (keyModBit b).isSome then scanKeyModifier ((keyModBit b).getD 0) s else scanKeyCode b s := by
  simp only [decodeByte, h, reduceCtorEq, if_false, decodeInKey]
  cases keyModBit b <;> rfl

/-- DECODE in ExtendedKey (43 R124). -/
theorem decodeByte_extendedKey {s : State} (h : s.kMode = .extendedKey) (b : Byte) : decodeByte b s =
    if b = 0x00#8 then scanZero s else if b = 0xF0#8 then scanBreak s else if b = 0xE0#8 then scanEnterExt s
    else if b = 0xE1#8 then scanEnterExt2 s else if b = 0x12#8 then scanDiscard s else if b = 0x59#8 then scanDiscard s
    else if (extModBit b).isSome then scanExtModifier ((extModBit b).getD 0) s else scanExtCode b s := by
  have hdiscard : isExtDiscard b = true ↔ b = 0x12#8 ∨ b = 0x59#8 := by simp [isExtDiscard]
  simp only [decodeByte, h, reduceCtorEq, if_false, if_true, decodeInExt, hdiscard, ite_or]
  cases extModBit b <;> rfl

/-- DECODE in ExtendedKey2 (43 R124). -/
theorem decodeByte_extendedKey2 {s : State} (h : s.kMode = .extendedKey2) (b : Byte) : decodeByte b s =
    if b = 0x00#8 then scanZero s else if b = 0xF0#8 then scanBreak s else if b = 0xE0#8 then scanAbort s
    else if b = 0xE1#8 then scanAbort s else if b = 0x14#8 ∧ s.kP2 = false then scanPauseFirst s
    else if b = 0x77#8 ∧ s.kP2 = true then scanPause s else scanAbort s := by
  simp only [decodeByte, h, reduceCtorEq, if_false, if_true, decodeInExt2, ite_or]
  rfl

/-! ## DECODE and its rows -/

/-- A row of the byte map gives its effect under its byte class and selector. -/
theorem scanRowOp_of_wf {i : Instr} {s : State} (hwf : i.wf = true) (hsel : selects i s.kMode s.kP2 = true) (t : State) :
    scanRowOp i s t = .next t :=
  scanRowOp_next.mpr ⟨⟨hwf, hsel⟩, rfl⟩

/-- DECODE's effect is that of the row its byte selects (43 R124). -/
theorem exec_scanRow (b : Byte) (s : State) : exec (scanRow s.kMode s.kP2 b) s = .next (decodeByte b s) := by
  obtain ⟨hwf, hsel, -⟩ := scanRow_spells s.kMode s.kP2 b Bytes8.zero
  refine Eq.trans ?_ (scanRowOp_of_wf hwf hsel (decodeByte b s))
  cases hmode : s.kMode with
  | command =>
    rw [scanRow_command, decodeByte, if_pos hmode]
    rfl
  | key =>
    rw [scanRow_key, decodeByte_key hmode]
    split_ifs <;> rfl
  | extendedKey =>
    rw [scanRow_extendedKey, decodeByte_extendedKey hmode]
    split_ifs <;> rfl
  | extendedKey2 =>
    rw [scanRow_extendedKey2, decodeByte_extendedKey2 hmode]
    split_ifs <;> rfl

/-- Only the row that a byte selects spells that byte (30 R79). -/
theorem eq_scanRow {i : Instr} {k : KMode} {p2 : Bool} {b : Byte} (hfmt : formatOf i = .scanByte)
    (hword : (wordOf i).toNat = b.toNat) (hwf : i.wf = true) (hsel : selects i k p2 = true) : i = scanRow k p2 b := by
  have hbyte : (wordOf i).extractLsb' 0 8 = b := by
    apply BitVec.eq_of_toNat_eq
    rw [BitVec.extractLsb'_toNat, Nat.shiftRight_zero, hword, Nat.mod_eq_of_lt b.isLt]
  rw [← hbyte, scanRow_of_wf hfmt hwf hsel]

/-- Settles O33: DECODE and the selected row have one effect, and a row is selected by its own byte. -/
theorem decodeSelectsOneRow : Obligations.DecodeSelectsOneRow := fun b s =>
  ⟨⟨decodeByte b s, rfl⟩, (exec_scanRow b s).symm, fun _ hfmt hword hwf hsel => eq_scanRow hfmt hword hwf hsel⟩

/-! ## Events -/

/-- The code of a final byte in Key (30 R81). -/
theorem keyCode_eq (b : Byte) : b.setWidth 32 = BitVec.ofNat 32 b.toNat := (BitVec.ofNat_toNat 32 b).symm

/-- The code of a final byte in ExtendedKey: the tag's low byte is clear (30 R81). -/
theorem extCode_eq (b : Byte) : Config.extTag ||| b.setWidth 32 = BitVec.ofNat 32 (0xE000 + b.toNat) := by
  have hor : 0xE000 + b.toNat = 0xE000 ||| b.toNat := Nat.two_pow_add_eq_or_of_lt b.isLt 0xE0
  rw [hor, BitVec.ofNat_or, BitVec.ofNat_toNat]
  rfl

/-- The final bytes of Key, listed (30 R79). -/
theorem isKeyPlain_of_notMem {b : Byte}
    (hb : b ∉ [0x00#8, 0xF0#8, 0xE0#8, 0xE1#8, 0x12#8, 0x59#8, 0x14#8, 0x11#8]) : isKeyPlain b = true := by
  rw [isKeyPlain_iff, keyModBit_isSome_iff]
  simp_all

/-- The final bytes of ExtendedKey, listed (30 R79). -/
theorem isExtPlain_of_notMem {b : Byte}
    (hb : b ∉ [0x00#8, 0xF0#8, 0xE0#8, 0xE1#8, 0x12#8, 0x59#8, 0x14#8, 0x11#8, 0x1F#8, 0x27#8]) : isExtPlain b = true := by
  rw [isExtPlain_iff, extModBit_isSome_iff]
  simp_all

/-- A final byte in Key gives its event (43 R138). -/
theorem scanKeyCode_eq (b : Byte) (s : State) : scanKeyCode b s =
    { s with kRel := false, result := .decoded s.kMods (BitVec.ofNat 32 b.toNat) (eventByRel s) } := by
  rw [← keyCode_eq]
  rfl

/-- A final byte in ExtendedKey gives its event and ends the sequence (43 R136). -/
theorem scanExtCode_eq (b : Byte) (s : State) : scanExtCode b s =
    { s with kMode := .key, kRel := false,
             result := .decoded s.kMods (BitVec.ofNat 32 (0xE000 + b.toNat)) (eventByRel s) } := by
  rw [← extCode_eq]
  rfl

/-- Settles O35: each row's byte class holds, so that it gives its effect, whose code is R81's. -/
theorem eventRows : Obligations.EventRows := by
  intro b s ev
  refine ⟨fun hmode hb => ?_, fun hmode hb => ?_, fun hmode hp2 => ?_⟩
  · exact (scanRowOp_of_wf (i := .scanKeyPlain b) (isKeyPlain_of_notMem hb) (by simp [selects, hmode]) _).trans
      (congrArg _ (scanKeyCode_eq b s))
  · exact (scanRowOp_of_wf (i := .scanExtPlain b) (isExtPlain_of_notMem hb) (by simp [selects, hmode]) _).trans
      (congrArg _ (scanExtCode_eq b s))
  · exact scanRowOp_of_wf (i := .scanExt2Byte77) rfl (by simp [selects, hmode, hp2]) _

/-! ## Sequences of bytes -/

/-- A script in two parts. -/
theorem runScript_append (xs ys : List Instr) (s : State) :
    runScript (xs ++ ys) s = andThen (runScript xs s) (runScript ys) := by
  induction xs generalizing s with
  | nil => rfl
  | cons x xs ih =>
    simp only [List.cons_append, runScript, andThen_assoc]
    congr 1
    funext u
    exact ih u

/-- A script that begins with DECODE goes on from the state after it. -/
theorem runScript_decode (b : Byte) (is : List Instr) (s : State) :
    runScript (.decode b :: is) s = runScript is (decodeByte b s) := rfl

/-- s with the decoder inside a sequence: its mode, whether a release is pending, whether the pause sequence is at its last byte,
and the triple it returned. -/
def inSequence (k : KMode) (rel p2 : Bool) (r : Result) (s : State) : State :=
  { s with kMode := k, kRel := rel, kP2 := p2, result := r }

/-- Between sequences only K_P2 and the triple may differ. -/
theorem inSequence_key {s : State} (hmode : s.kMode = .key) (hrel : s.kRel = false) (p2 : Bool) (r : Result) :
    inSequence .key false p2 r s = { s with kP2 := p2, result := r } := by
  rw [inSequence, ← hmode, ← hrel]

/-- 0xF0 outside Command makes a release pending (43 R127). -/
theorem decodeByte_break {k : KMode} (hk : k ≠ .command) (rel p2 : Bool) (r : Result) (s : State) :
    decodeByte 0xF0 (inSequence k rel p2 r s) = inSequence k true p2 (.decoded s.kMods 0 .none) s :=
  if_neg hk

/-- A run of 0xE0 and 0xF0 in ExtendedKey makes a release pending when a 0xF0 is among them, and gives no event (30 R80). -/
theorem runScript_extRun (run : List Bool) (rel p2 : Bool) (r : Result) (s : State) :
    ∃ r', runScript (run.map fun f0 => .decode (if f0 then 0xF0 else 0xE0)) (inSequence .extendedKey rel p2 r s) =
      .next (inSequence .extendedKey (rel || decide (true ∈ run)) p2 r' s) := by
  induction run generalizing rel r with
  | nil => exact ⟨r, by simp [runScript]⟩
  | cons f0 run ih =>
    cases f0 with
    | true =>
      obtain ⟨r', hrun⟩ := ih true (.decoded s.kMods 0 .none)
      refine ⟨r', ?_⟩
      rw [List.map_cons, if_pos rfl, runScript_decode, decodeByte_break (by decide), hrun]
      simp
    | false =>
      obtain ⟨r', hrun⟩ := ih rel (.decoded s.kMods 0 .none)
      have hext : decodeByte 0xE0 (inSequence .extendedKey rel p2 r s) =
        inSequence .extendedKey rel p2 (.decoded s.kMods 0 .none) s := rfl
      refine ⟨r', ?_⟩
      rw [List.map_cons, if_neg (by decide), runScript_decode, hext, hrun]
      simp

/-- A run of 0xF0 outside Command makes a release pending unless it is empty, and gives no event (30 R80). -/
theorem runScript_breaks (n : Nat) {k : KMode} (hk : k ≠ .command) (rel p2 : Bool) (r : Result) (s : State) :
    ∃ r', runScript (List.replicate n (.decode 0xF0)) (inSequence k rel p2 r s) =
      .next (inSequence k (rel || decide (0 < n)) p2 r' s) := by
  induction n generalizing rel r with
  | zero => exact ⟨r, by simp [runScript]⟩
  | succ n ih =>
    obtain ⟨r', hrun⟩ := ih true (.decoded s.kMods 0 .none)
    refine ⟨r', ?_⟩
    rw [List.replicate_succ, runScript_decode, decodeByte_break hk, hrun]
    simp

/-- A final byte of ExtendedKey gives one event, a release exactly when one was pending (43 R136). -/
theorem decodeByte_extFinal {b : Byte} (hb : isExtPlain b = true) (rel p2 : Bool) (r : Result) (s : State) :
    decodeByte b (inSequence .extendedKey rel p2 r s) = inSequence .key false p2
      (.decoded s.kMods (BitVec.ofNat 32 (0xE000 + b.toNat)) (if rel then .release else .press)) s := by
  obtain ⟨h0, hF0, hE0, hE1, h12, h59, hmod⟩ := (isExtPlain_iff b).mp hb
  rw [decodeByte_extendedKey rfl, if_neg h0, if_neg hF0, if_neg hE0, if_neg hE1, if_neg h12, if_neg h59, if_neg hmod,
    scanExtCode_eq]
  rfl

/-- The extended sequences of R80: the run makes a release pending or not, and the final byte gives the event. -/
theorem runScript_extended {s : State} (hmode : s.kMode = .key) (hrel : s.kRel = false) (run : List Bool) {b : Byte}
    (hb : isExtPlain b = true) :
    runScript (.decode 0xE0 :: (run.map fun f0 => .decode (if f0 then 0xF0 else 0xE0)) ++ [.decode b]) s =
      .next { s with
        result := .decoded s.kMods (BitVec.ofNat 32 (0xE000 + b.toNat)) (if true ∈ run then .release else .press) } := by
  have hE0 : decodeByte 0xE0 s = inSequence .extendedKey s.kRel s.kP2 (.decoded s.kMods 0 .none) s :=
    decodeByte_key hmode _
  obtain ⟨r, hrun⟩ := runScript_extRun run false s.kP2 (.decoded s.kMods 0 .none) s
  rw [List.cons_append, runScript_decode, hE0, hrel, runScript_append, hrun, andThen_of_next, runScript_decode,
    decodeByte_extFinal hb, inSequence_key hmode hrel]
  simp [runScript, hrel]

/-- The pause sequences of R80: each continuation byte is taken where K_P2 expects it, whatever release is pending. -/
theorem runScript_pause {s : State} (hmode : s.kMode = .key) (hrel : s.kRel = false) (m n : Nat) :
    runScript ([.decode 0xE1] ++ List.replicate m (.decode 0xF0) ++ [.decode 0x14] ++ List.replicate n (.decode 0xF0) ++
        [.decode 0x77]) s =
      .next { s with kP2 := false, result := .decoded s.kMods 0x00E11477 (if 0 < m + n then .release else .press) } := by
  have hE1 : runScript [.decode 0xE1] s = .next (inSequence .extendedKey2 s.kRel false (.decoded s.kMods 0 .none) s) :=
    congrArg _ (decodeByte_key hmode _)
  obtain ⟨r, hm⟩ := runScript_breaks m (k := .extendedKey2) (by decide) false false (.decoded s.kMods 0 .none) s
  have h14 (rel : Bool) : runScript [.decode 0x14] (inSequence .extendedKey2 rel false r s) =
    .next (inSequence .extendedKey2 rel true (.decoded s.kMods 0 .none) s) := rfl
  obtain ⟨r', hn⟩ := runScript_breaks n (k := .extendedKey2) (by decide) (false || decide (0 < m)) true
    (.decoded s.kMods 0 .none) s
  have h77 (rel : Bool) : runScript [.decode 0x77] (inSequence .extendedKey2 rel true r' s) =
    .next (inSequence .key false false (.decoded s.kMods 0x00E11477 (if rel then .release else .press)) s) := rfl
  rw [runScript_append, runScript_append, runScript_append, runScript_append, hE1, hrel, andThen_of_next, hm, andThen_of_next,
    h14, andThen_of_next, hn, andThen_of_next, h77, inSequence_key hmode hrel]
  simp [hrel]

/-- Settles O38: a listed final byte is one of ExtendedKey's, and the pause sequence needs no further condition. -/
theorem prefixedSequencesDecode : Obligations.PrefixedSequencesDecode := fun _ hmode hrel =>
  ⟨fun run _ hb => runScript_extended hmode hrel run (isExtPlain_of_notMem hb), fun m n => runScript_pause hmode hrel m n⟩

end Sys2Proof.Machine

/-! Frames from the device (30_encoding R74, R83): a whole frame from the gap between frames, the responses with a special meaning,
and the ring buffer read as a queue, which the wait for 0xAA empties. -/

namespace Sys2Proof.Machine

/-! ## Whole frames -/

/-- A write to a slot of canonical storage stores the value there and leaves every other slot (10 R31). -/
theorem storedAt_write {m : Memory} (h : Memory.wf m = true) (i : BitVec 5) (v : Byte) :
    StoredAt m (Memory.write m i.toNat v) i.toNat v := by
  refine ⟨Memory.write_wf h i v, fun j => ?_⟩
  split
  next hj => rw [hj]; exact Memory.read_write_same h
  next hj => exact Memory.read_write_other v m hj

/-- Frame completion, its exits in order (41 R101, R102). -/
theorem frameDone_eq (b : Byte) (p : Bool) (s : State) : frameDone b p s =
    if p ≠ parity b then
      if s.xAckst = .waiting then
        { s with xPerr := s.xPerr + 1, xAckst := .nacked, history := s.history ++ [.error (.nack b)] }
      else { s with xPerr := s.xPerr + 1, xResend := true, history := s.history ++ [.error (.parity b)] }
    else if b = 0xFA#8 ∧ s.xAckst = .waiting then { s with xAckst := .acked }
    else if b = 0#8 then { s with history := s.history ++ [.error .zeroByte] }
    else if rbAt s s.rbWr = 0#8 then { s with rb := Memory.write s.rb s.rbWr.toNat b, rbWr := s.rbWr + 1 }
    else { s with xOvf := s.xOvf + 1, history := s.history ++ [.error (.overflow b)] } :=
  rfl

/-- A frame from the gap between frames is its completion (30 R74, 41 R95 to R98). -/
theorem exec_frameRx {s : State} (h : ReceiverIdle s) (d : Byte) (p : Bool) :
    exec (.frameRx d p) s = .next (frameDone d p { s with xRxshift := d, xRxpar := p }) := by
  obtain ⟨hclk, hrec, hrx, hpos⟩ := h
  have hgap : ({ s with xRxshift := d, xRxpar := p, xBitpos := 0 } : State) = { s with xRxshift := d, xRxpar := p } :=
    congrArg (fun pos => ({ s with xRxshift := d, xRxpar := p, xBitpos := pos } : State)) hpos.symm
  exact (runEdges_frameLevels d p true s hclk hrec hrx hpos).trans (by rw [if_pos rfl, hgap])

/-- Settles O14: the frame is its completion, and a byte that is delivered is written to the slot at RB_WR. -/
theorem wholeFrameReceived : Obligations.WholeFrameReceived := by
  intro d p s hidle hwf u
  exact ⟨_, storedAt_write hwf s.rbWr d, (exec_frameRx hidle d p).trans (congrArg _ (frameDone_eq d p u))⟩

/-- RESP_ACK is the frame of 0xFA with its parity bit (30 R83). -/
theorem exec_respAck (s : State) : exec .respAck s = exec (.frameRx 0xFA true) s := rfl

/-- RESP_ZERO is the frame of 0x00 with its parity bit (30 R83). -/
theorem exec_respZero (s : State) : exec .respZero s = exec (.frameRx 0x00 true) s := rfl

/-- Settles O15: the exits of frame completion that are left for these two bytes. -/
theorem ackAndZeroResponses : Obligations.AckAndZeroResponses := by
  intro s hidle hwf
  constructor
  · obtain ⟨m, hstored, hexec⟩ := wholeFrameReceived 0xFA true s hidle hwf
    refine ⟨m, hstored, ?_⟩
    have hpar : parity 0xFA#8 = true := rfl
    rw [exec_respAck, hexec]
    simp [hpar]
  · rw [exec_respZero, exec_frameRx hidle]
    rfl

/-! ## The ring buffer as a queue -/

/-- The queue is the run of used slots from RB_RD on (10 R55). -/
theorem rbQueue_of_run {s : State} {n : Nat} (hn : n ≤ Config.rbCap)
    (hrun : ∀ k, k < Config.rbCap → (rbSlot s k ≠ 0#8 ↔ k < n)) : rbQueue s = (List.range n).map (rbSlot s) := by
  obtain ⟨m, hm⟩ := Nat.exists_eq_add_of_le hn
  have hused : ∀ b ∈ (List.range n).map (rbSlot s), (b != 0#8) = true := by
    simp only [List.mem_map, List.mem_range, forall_exists_index, and_imp, forall_apply_eq_imp_iff₂]
    intro k hk
    simpa using (hrun k (by omega)).mpr hk
  have hfree : (((List.range m).map (n + ·)).map (rbSlot s)).takeWhile (· != 0#8) = [] := by
    cases m with
    | zero => rfl
    | succ m =>
      have hempty : rbSlot s n = 0#8 := by
        by_contra hne
        exact absurd ((hrun n (by omega)).mp hne) (lt_irrefl n)
      simp [List.range_succ_eq_map, hempty]
  rw [rbQueue, hm, List.range_add, List.map_append, List.takeWhile_append_of_pos hused, hfree, List.append_nil]

/-- The queue has as many bytes as there are used slots. -/
theorem rbQueue_of_rbInv {s : State} (h : RbInv s) : Memory.wf s.rb = true ∧ ∃ n, n = (rbQueue s).length ∧
    n ≤ Config.rbCap ∧ s.rbWr = s.rbRd + BitVec.ofNat 5 n ∧ (∀ k, k < Config.rbCap → (rbSlot s k ≠ 0#8 ↔ k < n)) ∧
    rbQueue s = (List.range n).map (rbSlot s) := by
  obtain ⟨hwf, n, hn, hwr, hrun⟩ := h
  have hq := rbQueue_of_run (Nat.le_of_lt_succ hn) hrun
  exact ⟨hwf, n, by simp [hq], Nat.le_of_lt_succ hn, hwr, hrun, hq⟩

/-- A push with room appends its byte to the queue (41 R102, 20 R63). -/
theorem rbPush_queue {b : Byte} (hb : b ≠ 0#8) {s : State} (h : RbInv s) (hroom : (rbQueue s).length < Config.rbCap) :
    rbPush b s = { s with rb := Memory.write s.rb s.rbWr.toNat b, rbWr := s.rbWr + 1 } ∧
      rbQueue (rbPush b s) = rbQueue s ++ [b] := by
  obtain ⟨hwf, n, hlen, -, hwr, hrun, hq⟩ := rbQueue_of_rbInv h
  rw [← hlen] at hroom
  have hfree : rbAt s s.rbWr = 0#8 := by
    rw [hwr]
    by_contra hne
    exact absurd ((hrun n hroom).mp hne) (lt_irrefl n)
  have hpush : rbPush b s = { s with rb := Memory.write s.rb s.rbWr.toNat b, rbWr := s.rbWr + 1 } := if_pos hfree
  have hslot (k : Nat) (hk : k < Config.rbCap) : rbSlot (rbPush b s) k = if k = n then b else rbSlot s k := by
    rw [hpush, hwr]
    exact rbSlot_rbSet hwf hroom hk b
  refine ⟨hpush, ?_⟩
  have hrun' (k : Nat) (hk : k < Config.rbCap) : rbSlot (rbPush b s) k ≠ 0#8 ↔ k < n + 1 := by
    rw [hslot k hk]
    split
    next hkn => exact iff_of_true hb (by omega)
    next hkn => exact (hrun k hk).trans (by omega)
  rw [rbQueue_of_run hroom hrun', hq, List.range_succ, List.map_append, List.map_singleton, hslot n hroom, if_pos rfl]
  congr 1
  refine List.map_congr_left fun k hk => ?_
  have hkn := List.mem_range.mp hk
  rw [hslot k (by omega), if_neg (by omega)]

/-- POP's front is the oldest byte of the queue, and a pop leaves the others (42 R105, 20 R63). -/
theorem rbPop_queue {s : State} (h : RbInv s) {b : Byte} {rest : List Byte} (hq : rbQueue s = b :: rest) :
    rbFront s = b ∧ rbQueue (rbPop s) = rest := by
  obtain ⟨hwf, n, hlen, hcap, hwr, hrun, hmap⟩ := rbQueue_of_rbInv h
  obtain ⟨n, rfl⟩ : ∃ m, n = m + 1 := ⟨rest.length, by simpa [hq] using hlen⟩
  rw [hq, List.range_succ_eq_map, List.map_cons, List.cons.injEq] at hmap
  obtain ⟨hb, hrest⟩ := hmap
  have hfront : rbFront s = b := by simp [hb, rbSlot, rbFront]
  have hne : rbFront s ≠ 0#8 := by
    rw [hfront, hb]
    exact (hrun 0 (by decide)).mpr (Nat.succ_pos n)
  have hpop : rbPop s = { s with rb := Memory.write s.rb s.rbRd.toNat 0, rbRd := s.rbRd + 1 } := if_neg hne
  have hslot (k : Nat) (hk : k < Config.rbCap) :
      rbSlot (rbPop s) k = if k + 1 = Config.rbCap then 0#8 else rbSlot s (k + 1) := by
    rw [hpop]
    exact rbSlot_popped hwf hk
  have hrun' (k : Nat) (hk : k < Config.rbCap) : rbSlot (rbPop s) k ≠ 0#8 ↔ k < n := by
    rw [hslot k hk]
    split
    next hlast => exact iff_of_false (fun hne => hne rfl) (by omega)
    next hlast => exact (hrun (k + 1) (by omega)).trans (by omega)
  refine ⟨hfront, ?_⟩
  rw [rbQueue_of_run (by omega) hrun', hrest, List.map_map]
  refine List.map_congr_left fun k hk => ?_
  have hkn := List.mem_range.mp hk
  rw [hslot k (by omega)]
  split
  next hlast => omega
  next => rfl

/-- Slots beyond the array read 0x00 (10 R31). -/
theorem Memory.read_outside {m : Memory} {lo a : Nat} (h : Memory.wfFrom lo m = true) (ha : Config.rbCap ≤ a) :
    Memory.read m a = 0#8 := by
  induction m generalizing lo with
  | nil => rfl
  | cons c m ih =>
    obtain ⟨i, v⟩ := c
    simp only [Memory.wfFrom, Bool.and_eq_true, decide_eq_true_eq] at h
    obtain ⟨⟨⟨-, hi⟩, -⟩, hm⟩ := h
    have hne : a ≠ i := by omega
    simp only [Memory.read, hne, if_false]
    exact ih hm

/-- An empty queue is an empty buffer: RB_RD has reached RB_WR, and every slot reads 0x00 (10 R55). -/
theorem rbQueue_eq_nil {s : State} (h : RbInv s) (hq : rbQueue s = []) :
    s.rbRd = s.rbWr ∧ ∀ j, Memory.read s.rb j = 0#8 := by
  obtain ⟨hwf, n, hlen, -, hwr, hrun, -⟩ := rbQueue_of_rbInv h
  rw [hq] at hlen
  subst hlen
  refine ⟨by simp [hwr], fun j => ?_⟩
  by_cases hj : j < Config.rbCap
  · have hslot : rbSlot s (BitVec.ofNat 5 j - s.rbRd).toNat = Memory.read s.rb j := by
      rw [rbSlot, BitVec.ofNat_toNat, BitVec.setWidth_eq, add_sub_cancel, rbAt, BitVec.toNat_ofNat,
        Nat.mod_eq_of_lt (show j < 2 ^ 5 from hj)]
    rw [← hslot]
    by_contra hne
    exact absurd ((hrun _ (BitVec.isLt _)).mp hne) (Nat.not_lt_zero _)
  · exact Memory.read_outside hwf (by omega)

/-! ## The wait for 0xAA -/

/-- Outside BOOT_WAIT_BAT, or during a send, there is no poll (42 R121). -/
theorem batWait_done {s : State} (h : s.mainPc ≠ .bootWaitBat ∨ s.sState ≠ .idle) (n : Nat) : batWait n s = s := by
  cases n with
  | zero => rfl
  | succ n => exact if_neg (by simpa [imp_iff_not_or] using h)

/-- A poll in BOOT_WAIT_BAT takes one byte, and the wait goes on with one pass less (42 R120). -/
theorem batWait_succ {s : State} (hpc : s.mainPc = .bootWaitBat) (hidle : s.sState = .idle) (n : Nat) :
    batWait (n + 1) s = batWait n (batPollOnce s) :=
  if_pos ⟨hpc, hidle⟩

/-- The wait discards the bytes before 0xAA, takes it, and ends with an empty queue (42 R120, R121). -/
theorem batWait_batOk (q : List Byte) {n : Nat} {s : State} (hinv : RbInv s) (hpc : s.mainPc = .bootWaitBat)
    (hidle : s.sState = .idle) (hq : rbQueue s = q ++ [Config.batOk]) (hnot : Config.batOk ∉ q) (hn : q.length < n) :
    RbInv (batWait n s) ∧ rbQueue (batWait n s) = [] ∧ (batWait n s).mainPc = .bootScanset ∧
      (batWait n s).mainAt = .start := by
  obtain ⟨n, rfl⟩ : ∃ m, n = m + 1 := Nat.exists_eq_add_one.mpr (by omega)
  rw [batWait_succ hpc hidle, batPollOnce]
  induction q generalizing n s with
  | nil =>
    obtain ⟨hfront, hpop⟩ := rbPop_queue hinv hq
    rw [if_pos hfront, batWait_done (.inl (by simp))]
    exact ⟨rbPop_rbInv hinv, hpop, rfl, rfl⟩
  | cons b q ih =>
    obtain ⟨hb, hnot⟩ := not_or.mp (mt List.mem_cons.mpr hnot)
    obtain ⟨hfront, hpop⟩ := rbPop_queue hinv hq
    obtain ⟨n, rfl⟩ : ∃ m, n = m + 1 := Nat.exists_eq_add_one.mpr (by rw [List.length_cons] at hn; omega)
    have hpc' : (rbPop s).mainPc = .bootWaitBat := by rw [rbPop_frame]; exact hpc
    have hidle' : (rbPop s).sState = .idle := by rw [rbPop_frame]; exact hidle
    rw [if_neg (by rw [hfront]; exact Ne.symm hb), batWait_succ hpc' hidle', batPollOnce]
    exact ih (rbPop_rbInv hinv) hpc' hidle' hpop hnot n (Nat.lt_of_succ_lt_succ hn)

/-- RESP_BAT_OK is the frame of 0xAA with its parity bit, and the polls after it (30 R83). -/
theorem exec_respBatOk {s : State} (h : ReceiverIdle s) :
    exec .respBatOk s = .next (batWait Config.rbCap (frameDone 0xAA true { s with xRxshift := 0xAA, xRxpar := true })) := by
  change andThen (exec (.frameRx 0xAA true) s) _ = _
  rw [exec_frameRx h, andThen_of_next]

/-- A 0xAA pushed in the wait, behind bytes that are none, empties the buffer and ends the wait (42 R120, R121). -/
theorem batWait_rbPush {s : State} (hpc : s.mainPc = .bootWaitBat) (hidle : s.sState = .idle) (hinv : RbInv s)
    (hnot : 0xAA#8 ∉ rbQueue s) (hroom : (rbQueue s).length < Config.rbCap) :
    ∃ t, batWait Config.rbCap (rbPush 0xAA s) = t ∧
      t = { s with rb := t.rb, rbWr := s.rbWr + 1, rbRd := s.rbWr + 1, mainPc := .bootScanset, mainAt := .start } ∧
      ∀ j, Memory.read t.rb j = 0#8 := by
  have hne : (0xAA : Byte) ≠ 0#8 := by decide
  obtain ⟨hpush, hq⟩ := rbPush_queue hne hinv hroom
  have hpc' : (rbPush 0xAA s).mainPc = .bootWaitBat := by rw [hpush]; exact hpc
  have hidle' : (rbPush 0xAA s).sState = .idle := by rw [hpush]; exact hidle
  obtain ⟨htinv, htq, htpc, htat⟩ := batWait_batOk (rbQueue s) (rbPush_rbInv hne hinv) hpc' hidle' hq hnot hroom
  have hframe := batWait_frame Config.rbCap (rbPush 0xAA s)
  generalize batWait Config.rbCap (rbPush 0xAA s) = t at *
  obtain ⟨hrd, hempty⟩ := rbQueue_eq_nil htinv htq
  have hwr : t.rbWr = s.rbWr + 1 := by rw [hframe, hpush]
  refine ⟨t, rfl, ?_, hempty⟩
  rw [htpc, htat, hrd, hwr, hpush] at hframe
  exact hframe

/-- Settles O16: in the wait the byte is pushed and polled for; elsewhere nothing polls, and the frame is all there is. -/
theorem batOkResponseEndsTheWait : Obligations.BatOkResponseEndsTheWait := by
  intro s hrx
  refine ⟨fun hpc hidle hinv hnot hroom => ?_, fun h => ?_⟩
  · obtain ⟨t, hwait, hends⟩ :=
      batWait_rbPush (s := { s with xRxshift := 0xAA, xRxpar := true }) hpc hidle hinv hnot hroom
    exact ⟨t, (exec_respBatOk hrx).trans (congrArg _ hwait), hends⟩
  · have hsame := frameDone_frame 0xAA true { s with xRxshift := 0xAA, xRxpar := true }
    rw [exec_respBatOk hrx, exec_frameRx hrx, batWait_done]
    rw [hsame]
    exact h

end Sys2Proof.Machine

/-! The host-to-device direction (30_encoding R75, R82, R87): the levels of a transmission edge by edge, the send of a byte that is
acknowledged, and the commands. -/

namespace Sys2Proof.Machine

/-! ## The levels of a transmission -/

/-- The levels that the block presents for byte b: at SETUP_DONE, and after each of eleven edges (30 R75). -/
def lineLevels (b : Byte) : List Bool := false :: ((List.range 8).map b.getLsbD ++ [parity b, true, true])

/-- s while it transmits byte b, after k of the eleven edges; after the last one it receives again (42 R110, R111). -/
def transmitting (b : Byte) (k : Nat) (s : State) : State :=
  { s with
    xTxbyte := b, xTxpar := parity b, xAckst := .waiting, clkOut := true, sState := .waitAck,
    dataOut := (lineLevels b).getD k true,
    xMode := if k < Config.txEdges then .tx else .rx,
    xBitpos := if k < Config.txEdges then BitVec.ofNat 4 (k + 1) else 0 }

/-- SETUP_DONE begins the transmission of the byte being sent (42 R110). -/
theorem setupTransmit_eq (s : State) : setupTransmit s = transmitting s.sByte 0 s := rfl

/-- SETUP_DONE in the inhibit (42 R110). -/
theorem exec_setupDone {s : State} (h : s.sState = .inhibit) : exec .setupDone s = .next (transmitting s.sByte 0 s) :=
  guarded_next.mpr ⟨beq_iff_eq.mpr h, congrArg _ (setupTransmit_eq s)⟩

/-- A transmit edge presents the next level (42 R111). -/
theorem txEdge_transmitting (b : Byte) {k : Nat} (hk : k < Config.txEdges) (s : State) :
    txEdge (transmitting b k s) = transmitting b (k + 1) s := by
  change k < 11 at hk
  interval_cases k <;> rfl

/-- Each edge of a transmission presents the next level, whatever level is sampled (42 R111). -/
theorem runEdges_transmitting (b : Byte) {s : State} (hrec : s.xRecover = false) (ds : List Bool) {k : Nat}
    (hk : k + ds.length ≤ Config.txEdges) : runEdges ds (transmitting b k s) = .next (transmitting b (k + ds.length) s) := by
  induction ds generalizing k with
  | nil => rfl
  | cons d ds ih =>
    rw [List.length_cons] at hk ⊢
    have hlt : k < Config.txEdges := by omega
    have hedge : edgeOp d (transmitting b k s) = .next (transmitting b (k + 1) s) := by
      rw [← txEdge_transmitting b hlt]
      simp [edgeOp, transmitting, hrec, hlt]
    rw [runEdges_cons, hedge, andThen_of_next, ih (by omega), Nat.add_right_comm, Nat.add_assoc]

/-- A script of EDGE rows is the run of their levels (30 R87). -/
theorem runScript_edges (ds : List Bool) (s : State) : runScript (edges ds) s = runEdges ds s := by
  induction ds generalizing s with
  | nil => rfl
  | cons d ds ih =>
    change andThen (edgeOp d s) (runScript (edges ds)) = andThen (edgeOp d s) (runEdges ds)
    congr 1
    funext u
    exact ih u

/-- Settles O24: SETUP_DONE presents the first level, and every edge the next one. -/
theorem transmittedLevels : Obligations.TransmittedLevels := by
  intro levels s hst hrec hlen
  refine ⟨transmitting s.sByte levels.length s, ?_, rfl, ?_⟩
  · rw [runScript, exec_setupDone hst, andThen_of_next, runScript_edges,
      runEdges_transmitting s.sByte hrec levels (by rwa [Nat.zero_add]), Nat.zero_add]
  · change (if levels.length < 11 then XMode.tx else .rx) = .rx ↔ levels.length = 11
    split_ifs with hlt
    · exact iff_of_false nofun hlt.ne
    · exact iff_of_true rfl (le_antisymm hlen (not_lt.mp hlt))

/-- Settles O25: the edges are a transmission's, unless recovery loses them. -/
theorem wholeSequenceTransmitted : Obligations.WholeSequenceTransmitted := by
  intro a s hst
  have hexec : exec (.frameTx s.sByte (parity s.sByte) a) s = runEdges (txLevels a) (transmitting s.sByte 0 s) := by
    rw [← setupTransmit_eq]
    exact if_pos (by simp [hst])
  obtain hrec | hrec := Bool.eq_false_or_eq_true s.xRecover
  · rw [hexec, runEdges_recovering _ (transmitting s.sByte 0 s) rfl hrec]
    simp [transmitting, hrec, lineLevels, Config.txEdges]
  · rw [hexec, runEdges_transmitting s.sByte hrec (txLevels a) (by simp [txLevels, Config.txEdges])]
    simp [transmitting, hrec, lineLevels, Config.txEdges, txLevels]

/-! ## An acknowledged send -/

/-- SEND between sends starts attempt one (42 R107). -/
theorem exec_send {s : State} (h : s.sState = .idle) (b : Byte) : exec (.send b) s = .next (sendStart b s) :=
  guarded_next.mpr ⟨beq_iff_eq.mpr h, rfl⟩

/-- s with the first attempt to send b begun and a partial frame abandoned (42 R107, R108). -/
def attempting (b : Byte) (s : State) : State :=
  { s with sByte := b, sAttempt := 1, sResult := .none, xRxshift := 0 }

/-- A send begins its transmission when the line has settled and the inhibit is over (42 R107, R108, R110). -/
theorem runScript_sendSetup {s : State} (h : s.sState = .idle) (b : Byte) :
    runScript [.send b, .settleDone, .setupDone] s = .next (transmitting b 0 (attempting b s)) := by
  rw [runScript, exec_send h]
  rfl

/-- `txclk` clocks the whole byte out (30 R87, 42 R111). -/
theorem runScript_txclk (b : Byte) {s : State} (hrec : s.xRecover = false) :
    runScript scriptTxclk (transmitting b 0 s) = .next (transmitting b 11 s) := by
  rw [scriptTxclk, runScript_edges]
  exact runEdges_transmitting b hrec (txLevels false) (k := 0) (by decide)

/-- The device's 0xFA after a transmission is the acknowledgment (41 R101). -/
theorem runScript_ackFrame (b : Byte) {s : State} (hrec : s.xRecover = false) :
    runScript (scriptFrame Config.ack) (transmitting b 11 s) =
      .next { transmitting b 11 s with xRxshift := 0xFA, xRxpar := true, xAckst := .acked } := by
  rw [scriptFrame, runScript_edges]
  exact exec_frameRx (s := transmitting b 11 s) ⟨rfl, hrec, rfl, rfl⟩ 0xFA true

/-- Settles O28: the byte is transmitted, its 0xFA is received from the gap between frames, and the poll takes it. -/
theorem acknowledgedSendReturnsOk : Obligations.AcknowledgedSendReturnsOk := by
  intro b s hidle hrec
  have hrec' : (attempting b s).xRecover = false := hrec
  rw [scriptSendok, runScript_append, runScript_append, runScript_append, runScript_sendSetup hidle, andThen_of_next,
    runScript_txclk b hrec', andThen_of_next, runScript_ackFrame b hrec', andThen_of_next]
  rfl

/-! ## Commands -/

/-- MAIN_PC does not move on while a send is in progress (10 R53). -/
theorem settle_of_sending {s : State} (h : s.sState ≠ .idle) : settle s = s :=
  if_neg fun ⟨_, hidle, _⟩ => h hidle

/-- A pending byte is sent by the main context's next turn (10 R53, 42 R118, R119). -/
theorem step_sends_pending {s : State} {v : Byte} {rest : List Byte} (hin : s.input = []) (hidle : s.sState = .idle)
    (hsends : s.sends = v :: rest) : step s = .next { sendStart v s with sends := rest } := by
  have hnext : mainNext s = .op (.send v) := by simp only [mainNext, hidle, hsends]
  rw [step_of_no_input hin, mainTurn_of_op hnext, runOp_of_mainNext hnext, exec_send hidle, andThen_of_next]
  simp only [mainAfter, hidle, hsends]
  rw [settle_of_sending (by simp [sendStart])]

/-- Settles O20: each row starts the send of its first byte, and the pending byte is sent by the turn after it. -/
theorem commandsSendTheirBytes : Obligations.CommandsSendTheirBytes := by
  intro v s hidle
  have hguard (t : State) : guarded (s.sState == .idle) .main (.next t) = .next t := if_pos (beq_iff_eq.mpr hidle)
  exact ⟨hguard _, hguard _, hguard _, hguard _, fun rest hin hsends => step_sends_pending hin hidle hsends⟩

end Sys2Proof.Machine

/-! The framing codec (40_codec): the parity bit as an odd count, FRAMECHECK's verdicts, and the receive path's
verdict on a complete frame. -/

namespace Sys2Proof.Machine

/-! ## Parity -/

/-- Bits added up as numbers are the count of ones. -/
theorem sum_map_toNat (bits : List Bool) : (bits.map Bool.toNat).sum = bits.count true := by
  induction bits with
  | nil => rfl
  | cons x xs ih => cases x <;> simp [ih, Nat.add_comm]

/-- The number of ones is the sum of the byte's bits (00 R10). -/
theorem popcount8_eq_sum (b : Byte) : popcount8 b = ((List.range 8).map fun k => (b.getLsbD k).toNat).sum := by
  rw [popcount8, ← sum_map_toNat, bitsLsbFirst, List.map_map]
  rfl

/-- A parity bit is the right one exactly when the ones of the nine bits are odd in number (40 R88, R90). -/
theorem eq_parity_iff_odd (b : Byte) (p : Bool) : p = parity b ↔ (popcount8 b + p.toNat) % 2 = 1 := by
  obtain heven | hodd := Nat.mod_two_eq_zero_or_one (popcount8 b)
  · cases p <;> simp [parity, Nat.add_mod, heven]
  · cases p <;> simp [parity, Nat.add_mod, hodd]

/-- A parity bit is the wrong one exactly when the ones of the nine bits are even in number (40 R88, R90). -/
theorem ne_parity_iff_even (b : Byte) (p : Bool) : p ≠ parity b ↔ (popcount8 b + p.toNat) % 2 = 0 := by
  rw [Ne, eq_parity_iff_odd]
  omega

/-! ## FRAMECHECK -/

/-- A bad start bit is a framing error, whatever follows it (40 R89). -/
theorem frameCheck_badStart (d : Byte) (p t : Bool) : frameCheck true d p t = .framingError := rfl

/-- A bad stop bit is a framing error, whatever the parity bit (40 R89). -/
theorem frameCheck_badStop (st : Bool) (d : Byte) (p : Bool) : frameCheck st d p false = .framingError := by
  cases st <;> rfl

/-- Between a good start and a good stop bit the parity bit decides (40 R89). -/
theorem frameCheck_framed (d : Byte) (p : Bool) :
    frameCheck false d p true = if p ≠ parity d then .parityError else .ok := rfl

/-- Settles O10: the parity bit decides between the two verdicts that good start and stop bits leave. -/
theorem parityMakesNineBitsOdd : Obligations.ParityMakesNineBitsOdd := by
  refine ⟨fun b s => ⟨parity b, rfl, ?_⟩, fun st d p t => ?_⟩
  · rw [← popcount8_eq_sum]
    exact (eq_parity_iff_odd b _).mp rfl
  · rw [← eq_parity_iff_odd, ← ne_parity_iff_even]
    match st, t with
    | true, t => simp [frameCheck_badStart]
    | false, false => simp [frameCheck_badStop]
    | false, true =>
      rw [frameCheck_framed]
      by_cases hp : p = parity d <;> simp [hp]

/-! ## The receive path's verdict -/

/-- How the receive path shows verdict v on a frame that found it in state s and left it in u: the two error counters, the
recovery flag, and the position back in the gap between frames (41 R98, R99, R101). -/
def ShowsVerdict (v : Verdict) (s u : State) : Prop :=
  u.xFerr = s.xFerr + (if v = .framingError then 1 else 0) ∧
  u.xPerr = s.xPerr + (if v = .parityError then 1 else 0) ∧
  (u.xRecover = true ↔ v = .framingError) ∧ u.xBitpos = 0#4

/-- A verdict is shown against the two error counters alone. -/
theorem ShowsVerdict.of_counters {v : Verdict} {r s u : State} (h : ShowsVerdict v r u) (hferr : r.xFerr = s.xFerr)
    (hperr : r.xPerr = s.xPerr) : ShowsVerdict v s u := by
  rwa [ShowsVerdict, hferr, hperr] at h

/-- A framing error is shown from any state (41 R99). -/
theorem framingError_showsVerdict (s : State) : ShowsVerdict .framingError s (framingError s) := by
  simp [ShowsVerdict, framingError, raise]

/-- Frame completion counts a parity error exactly when the parity bit is wrong (41 R101). -/
theorem frameDone_xPerr (b : Byte) (p : Bool) (s : State) :
    (frameDone b p s).xPerr = s.xPerr + if p ≠ parity b then 1 else 0 := by
  obtain ⟨hp, _, h⟩ | ⟨hp, _, h⟩ | ⟨hp, _, _, h⟩ | ⟨hp, _, h⟩ | ⟨hp, _, _, h⟩ := frameDone_cases b p s
  · rw [h, if_pos hp]
  · rw [h, if_pos hp]
  · rw [h, if_neg (not_not_intro hp), add_zero]
  · rw [h, if_neg (not_not_intro hp), add_zero]
  · rw [h, rbPush_frame, if_neg (not_not_intro hp), add_zero]

/-- Frame completion in the gap between frames shows the parity bit's verdict (41 R101). -/
theorem frameDone_showsVerdict (b : Byte) (p : Bool) {s : State} (hrec : s.xRecover = false) (hpos : s.xBitpos = 0#4) :
    ShowsVerdict (if p ≠ parity b then .parityError else .ok) s (frameDone b p s) := by
  have hferr : (frameDone b p s).xFerr = s.xFerr := by rw [frameDone_frame]
  have hrecover : (frameDone b p s).xRecover = false := by rw [frameDone_frame, hrec]
  have hbitpos : (frameDone b p s).xBitpos = 0#4 := by rw [frameDone_frame, hpos]
  rw [ShowsVerdict, hferr, frameDone_xPerr, hrecover, hbitpos]
  by_cases hp : p = parity b <;> simp [hp]

/-- A frame with a bad start bit is a framing error at its first edge; recovery loses the ten edges after it (41 R94, R95). -/
theorem runEdges_badStart {s : State} (h : ReceiverIdle s) (d : Byte) (p t : Bool) :
    runEdges (frameLevels true d p t) s = .next (framingError s) := by
  obtain ⟨hclk, hrec, hrx, hpos⟩ := h
  have hstart : edgeOp true s = .next (framingError s) := by
    rw [edgeOp_rx hclk hrec hrx, rxEdge, if_pos hpos]
    rfl
  rw [frameLevels, runEdges_cons, hstart, andThen_of_next]
  exact runEdges_recovering _ (framingError s) hclk rfl

/-- Every complete frame shows FRAMECHECK's verdict: a bad start bit at the first edge, a bad stop bit at the last, and the
parity bit of any other frame at its completion (40 R91). -/
theorem runEdges_showsVerdict {s : State} (h : ReceiverIdle s) (st : Bool) (d : Byte) (p t : Bool) :
    ∃ u, runEdges (frameLevels st d p t) s = .next u ∧ ShowsVerdict (frameCheck st d p t) s u := by
  obtain ⟨hclk, hrec, hrx, hpos⟩ := h
  match st, t with
  | true, t => exact ⟨_, runEdges_badStart ⟨hclk, hrec, hrx, hpos⟩ d p t, framingError_showsVerdict s⟩
  | false, false =>
    rw [runEdges_frameLevels d p false s hclk hrec hrx hpos, if_neg Bool.false_ne_true, frameCheck_badStop]
    exact ⟨_, rfl, ShowsVerdict.of_counters (framingError_showsVerdict _) rfl rfl⟩
  | false, true =>
    rw [runEdges_frameLevels d p true s hclk hrec hrx hpos, if_pos rfl, frameCheck_framed]
    exact ⟨_, rfl, ShowsVerdict.of_counters (frameDone_showsVerdict d p hrec rfl) rfl rfl⟩

/-- Settles O11: a script of EDGE rows is a run of edges, which shows the verdict. -/
theorem receivePathTakesFrameCheckVerdict : Obligations.ReceivePathTakesFrameCheckVerdict := by
  intro st d p t s h
  rw [runScript_edges]
  exact runEdges_showsVerdict h st d p t

end Sys2Proof.Machine

/-! The receive path (41_transceiver_rx): an edge at each position, the edges that recovery loses, and the delivery of a run of
frames; with them the operations in states no run reaches. -/

namespace Sys2Proof.Machine

/-! ## An edge at each receive position -/

/-- An edge in receive mode, armed, does what its position says (41 R93). -/
theorem exec_edge_rx {s : State} (hclk : s.clkOut = true) (hrec : s.xRecover = false) (hrx : s.xMode = .rx) (d : Bool) :
    exec (.edge d) s = rxEdge d s :=
  edgeOp_rx hclk hrec hrx

/-- Position 0 is the start bit (41 R95). -/
theorem rxEdge_start {s : State} (h : s.xBitpos = 0#4) (d : Bool) : rxEdge d s = .next (rxStart d s) := if_pos h

/-- Positions 1 to 8 are the data bits (41 R96). -/
theorem rxEdge_data {s : State} (hlo : 1 ≤ s.xBitpos.toNat) (hhi : s.xBitpos.toNat ≤ 8) (d : Bool) :
    rxEdge d s = .next (rxData d s) := by
  have hstart : s.xBitpos ≠ 0#4 := by bv_omega
  rw [rxEdge, if_neg hstart, if_pos hhi]

/-- Position 9 is the parity bit (41 R97). -/
theorem rxEdge_parity {s : State} (h : s.xBitpos = 9#4) (d : Bool) : rxEdge d s = .next (rxParity d s) := by
  simp [rxEdge, h]

/-- Position 10 is the stop bit (41 R98). -/
theorem rxEdge_stop {s : State} (h : s.xBitpos = 10#4) (d : Bool) : rxEdge d s = .next (rxStop d s) := by
  simp [rxEdge, h]

/-- Above position 10 the receiver has no step (assumption log 7). -/
theorem rxEdge_beyond {s : State} (h : 11 ≤ s.xBitpos.toNat) (d : Bool) : rxEdge d s = .fault (.stuck .device) := by
  have hstart : s.xBitpos ≠ 0#4 := by bv_omega
  have hdata : ¬ s.xBitpos.toNat ≤ 8 := by omega
  have hparity : s.xBitpos ≠ 9#4 := by bv_omega
  have hstop : s.xBitpos ≠ 10#4 := by bv_omega
  rw [rxEdge, if_neg hstart, if_neg hdata, if_neg hparity, if_neg hstop]

/-- Settles O12: the four positions in turn, the data bits through a single written bit. -/
theorem edgeShiftsInOneBit : Obligations.EdgeShiftsInOneBit := by
  intro d s hclk hrec hrx framing
  simp only [exec_edge_rx hclk hrec hrx]
  refine ⟨fun hpos => ?start, fun hlo hhi => ⟨_, rxEdge_data hlo hhi d, fun k => ?bit⟩, fun hpos => rxEdge_parity hpos d,
    fun hpos hd => ?stop⟩
  case start => exact rxEdge_start hpos d
  case bit =>
    have hk : k + 1 = s.xBitpos.toNat ↔ k = s.xBitpos.toNat - 1 := by omega
    simp only [putBit_getLsbD s.xRxshift _ d k (show s.xBitpos.toNat - 1 < 8 by omega), hk]
  case stop =>
    subst hd
    exact rxEdge_stop hpos false

/-- Settles O13: a good stop bit is frame completion in the gap between frames, and a pushed byte is written at RB_WR. -/
theorem stopBitCompletesFrame : Obligations.StopBitCompletesFrame := by
  intro s hclk hrec hrx hpos hwf b u
  have hdone : exec (.edge true) s = .next (frameDone b s.xRxpar u) :=
    (exec_edge_rx hclk hrec hrx true).trans (rxEdge_stop hpos true)
  exact ⟨_, storedAt_write hwf s.rbWr b, hdone.trans (congrArg _ (frameDone_eq b s.xRxpar u))⟩

/-! ## Recovery -/

/-- During recovery an edge is lost, in either mode (41 R94). -/
theorem exec_edge_recovering {s : State} (hclk : s.clkOut = true) (hrec : s.xRecover = true) (d : Bool) :
    exec (.edge d) s = .next s := by
  change edgeOp d s = .next s
  simp [edgeOp, hclk, hrec]

/-- RECOVERY_DONE re-arms the receiver, in the gap between frames unless a transmission was set up meanwhile (41 R100). -/
theorem exec_recoveryDone {s : State} (h : s.xRecover = true) : exec .recoveryDone s =
    .next { s with xRecover := false, xBitpos := if s.xMode = .rx then 0 else s.xBitpos } :=
  if_pos h

/-- Settles O17: an edge finds the interrupt disarmed, and RECOVERY_DONE arms it in either mode. -/
theorem recoveryLosesEdgesUntilDone : Obligations.RecoveryLosesEdgesUntilDone := by
  intro s hrec
  refine ⟨fun hclk d => exec_edge_recovering hclk hrec d, fun hrx => ?rx, fun htx => ?tx⟩
  case rx => rw [exec_recoveryDone hrec, if_pos hrx]
  case tx => simp [exec_recoveryDone hrec, htx]

/-! ## States no run reaches, and an invalid length -/

/-- In transmit mode nothing is presented outside positions 1 to 11 (42 R111, assumption log 7). -/
theorem txEdge_outside {s : State} (h : s.xBitpos = 0#4 ∨ 12 ≤ s.xBitpos.toNat) : txEdge s = s := by
  have hdata : ¬ (1 ≤ s.xBitpos.toNat ∧ s.xBitpos.toNat ≤ 8) := by bv_omega
  have hparity : s.xBitpos ≠ 9#4 := by bv_omega
  have hstop : s.xBitpos ≠ 10#4 := by bv_omega
  have hlast : s.xBitpos ≠ 11#4 := by bv_omega
  rw [txEdge, if_neg hdata, if_neg hparity, if_neg hstop, if_neg hlast]

/-- An edge in transmit mode, armed, presents the next bit, whatever the sampled level (42 R111). -/
theorem exec_edge_tx {s : State} (hclk : s.clkOut = true) (hrec : s.xRecover = false) (htx : s.xMode = .tx) (d : Bool) :
    exec (.edge d) s = .next (txEdge s) := by
  change edgeOp d s = _
  simp [edgeOp, hclk, hrec, htx]

/-- A REPORT of no bytes or of more than eight is no operation (30 R78, assumption log 23). -/
theorem exec_report_invalid {len : BitVec 4} (h : len = 0#4 ∨ 9 ≤ len.toNat) (r : Bytes8) (s : State) :
    exec (.report len r) s = .refused .invalidWord := by
  have hlen : validLen len = false := by
    rw [validLen, decide_eq_false_iff_not]
    bv_omega
  exact if_pos hlen

/-- A recording without room has no slot for a step (20 R58, assumption log 7). -/
theorem exec_report_full {len : BitVec 4} {s : State} (hlo : 1 ≤ len.toNat) (hhi : len.toNat ≤ 8)
    (hmode : s.mMode = .recording) (hfill : Config.macroCap ≤ s.mFill.toNat) (r : Bytes8) :
    exec (.report len r) s = .fault .outsideArray := by
  have hlen : validLen len = true := decide_eq_true ⟨hlo, hhi⟩
  have hsome : s.mFill ≠ 0#6 := fun h => absurd hfill (by rw [h]; decide)
  change execReport len r s = _
  simp [execReport, hlen, hmode, hsome, Nat.not_lt.mpr hfill]

/-- Both chase patterns have one byte for each phase (00 R8). -/
theorem chasePattern_length (s : State) : (chasePattern s).length = Config.ledPhases := by
  unfold chasePattern
  split <;> rfl

/-- No chase pattern has a byte for a phase beyond the last (10 R47, 44 R154). -/
theorem serviceLeds_outside {s : State} (hmode : s.mMode ≠ .stopped) (hdue : s.mLedt.toNat ≤ s.tMs.toNat)
    (hph : Config.ledPhases ≤ s.mLedph.toNat) : serviceLeds s = .fault .outsideArray := by
  have hnone : (chasePattern s)[s.mLedph.toNat]? = none := List.getElem?_eq_none (chasePattern_length s ▸ hph)
  rw [serviceLeds, if_pos ⟨hmode, decide_eq_true hdue⟩, hnone]

/-- Settles O7: each operation in its case. -/
theorem unreachableCasesStopOrChangeNothing : Obligations.UnreachableCasesStopOrChangeNothing := by
  intro d s
  refine ⟨fun hclk hrec hrx hpos => ?rx, fun hclk hrec htx hpos => ?tx, fun hwait hack => ?ackPoll,
    fun len r hlen => exec_report_invalid hlen r s, fun len r hlo hhi hmode hfill => exec_report_full hlo hhi hmode hfill r,
    fun hidle hmode hph hdue => ?service⟩
  case rx => rw [exec_edge_rx hclk hrec hrx, rxEdge_beyond hpos]
  case tx => rw [exec_edge_tx hclk hrec htx, txEdge_outside hpos]
  case ackPoll =>
    change execAckPoll s = _
    simp [execAckPoll, hwait, hack]
  case service =>
    have hplay : servicePlay s = .next s := if_neg (by simp [hmode])
    have hleds : serviceLeds s = .fault .outsideArray := serviceLeds_outside (by simp [hmode]) hdue (by rw [hph]; decide)
    change execService s = _
    rw [execService, hidle, hplay, andThen_of_next, hleds]
    rfl

/-! ## Delivery -/

/-- A full queue drops a pushed byte and stays as it is (41 R102). -/
theorem rbPush_queue_full (b : Byte) {s : State} (h : RbInv s) (hfull : Config.rbCap ≤ (rbQueue s).length) :
    rbQueue (rbPush b s) = rbQueue s := by
  obtain ⟨-, n, hlen, hcap, hwr, hrun, -⟩ := rbQueue_of_rbInv h
  have hn : n = Config.rbCap := le_antisymm hcap (hlen ▸ hfull)
  have hwrap : s.rbWr = s.rbRd + BitVec.ofNat 5 0 := by rw [hwr, hn]; rfl
  have hused : rbAt s s.rbWr ≠ 0#8 := hwrap ▸ (hrun 0 (by decide)).mpr (by rw [hn]; decide)
  obtain ⟨hfree, -⟩ | ⟨-, hdrop⟩ := rbPush_cases b s
  · exact absurd hfree hused
  · rw [hdrop]
    rfl

/-- Frame completion keeps the buffer's invariant (41 R101, R102). -/
theorem frameDone_rbInv (b : Byte) (p : Bool) {s : State} (h : RbInv s) : RbInv (frameDone b p s) := by
  obtain ⟨-, -, heq⟩ | ⟨-, -, heq⟩ | ⟨-, -, -, heq⟩ | ⟨-, -, heq⟩ | ⟨-, hb, -, heq⟩ := frameDone_cases b p s <;> rw [heq]
  case inr.inr.inr.inr => exact rbPush_rbInv hb h
  all_goals exact h

/-- What a client sees of frame completion is the delivery of its byte (41 R101 to R103). -/
theorem frameDone_deliver (b : Byte) (p : Bool) {s : State} (h : RbInv s) :
    (rbQueue (frameDone b p s), (frameDone b p s).xAckst) = deliver (rbQueue s, s.xAckst) (b, p) := by
  obtain ⟨hp, hwait, heq⟩ | ⟨hp, hwait, heq⟩ | ⟨hp, hb, hwait, heq⟩ | ⟨hp, hb, heq⟩ | ⟨hp, hb, hack, heq⟩ :=
    frameDone_cases b p s <;> rw [heq]
  · simp only [deliver, if_pos hp, if_pos hwait]
    rfl
  · simp only [deliver, if_pos hp, if_neg hwait]
    rfl
  · have hack : b = 0xFA#8 ∧ s.xAckst = .waiting := ⟨hb, hwait⟩
    simp only [deliver, if_neg (not_not_intro hp), if_pos hack]
    rfl
  · have hack : ¬ (b = 0xFA#8 ∧ s.xAckst = .waiting) := by simp [hb]
    simp only [deliver, if_neg (not_not_intro hp), if_neg hack, if_pos (Or.inl hb)]
    rfl
  · have hack : ¬ (b = 0xFA#8 ∧ s.xAckst = .waiting) := hack
    have hackst : (rbPush b s).xAckst = s.xAckst := by rw [rbPush_frame]
    simp only [deliver, if_neg (not_not_intro hp), if_neg hack, hb, false_or, hackst]
    split
    next hfull => rw [rbPush_queue_full b h hfull]
    next hroom => rw [(rbPush_queue hb h (Nat.not_le.mp hroom)).2]

/-- Frame completion leaves the receiver between frames (41 R98, R101). -/
theorem frameDone_receiverIdle (b : Byte) (p : Bool) {s : State} (h : ReceiverIdle s) : ReceiverIdle (frameDone b p s) := by
  rw [frameDone_frame]
  exact h

/-- A frame row delivers its byte and leaves the receiver ready for the next frame (41 R101 to R103). -/
theorem exec_frameRx_deliver {s : State} (hidle : ReceiverIdle s) (hinv : RbInv s) (f : Byte × Bool) :
    ∃ u, exec (.frameRx f.1 f.2) s = .next u ∧ ReceiverIdle u ∧ RbInv u ∧
      (rbQueue u, u.xAckst) = deliver (rbQueue s, s.xAckst) f :=
  ⟨_, exec_frameRx hidle f.1 f.2, frameDone_receiverIdle f.1 f.2 (by exact hidle),
    frameDone_rbInv f.1 f.2 (by exact hinv), frameDone_deliver f.1 f.2 (by exact hinv)⟩

/-- Settles O18, by induction on the frames: each delivers its own byte and leaves the receiver ready for the rest. -/
theorem framesAreDeliveredInOrder : Obligations.FramesAreDeliveredInOrder := by
  intro frames
  induction frames with
  | nil => exact fun s hidle hinv => ⟨s, rfl, hidle, hinv, rfl⟩
  | cons f frames ih =>
    intro s hidle hinv
    obtain ⟨u, hframe, huidle, huinv, hfirst⟩ := exec_frameRx_deliver hidle hinv f
    obtain ⟨t, hrest, htidle, htinv, hqueue⟩ := ih u huidle huinv
    refine ⟨t, ?_, htidle, htinv, ?_⟩
    · rw [List.map_cons, runScript, hframe, andThen_of_next, hrest]
    · rw [hqueue, hfirst, List.foldl_cons]

end Sys2Proof.Machine

/-! The main context's side of the transceiver (42_transceiver_tx): what its operations leave behind, the outcomes of an attempt to
send. -/

namespace Sys2Proof.Machine

/-! ## POP -/

/-- POP's effect on the buffer, its two exits (42 R105). -/
theorem rbPop_eq (s : State) : rbPop s =
    if rbAt s s.rbRd = 0#8 then s else { s with rb := Memory.write s.rb s.rbRd.toNat 0, rbRd := s.rbRd + 1 } :=
  rfl

/-- POP between sends (42 R105). -/
theorem exec_pop {s : State} (h : s.sState = .idle) : exec .pop s = .next (ret (.byte (rbAt s s.rbRd)) (rbPop s)) :=
  guarded_next.mpr ⟨beq_iff_eq.mpr h, rfl⟩

/-- A pop of an empty queue finds 0x00 and changes nothing (42 R105). -/
theorem rbPop_of_queue_nil {s : State} (h : RbInv s) (hq : rbQueue s = []) : rbAt s s.rbRd = 0#8 ∧ rbPop s = s := by
  obtain ⟨-, hempty⟩ := rbQueue_eq_nil h hq
  have hfront : rbAt s s.rbRd = 0#8 := hempty s.rbRd.toNat
  exact ⟨hfront, if_pos hfront⟩

/-- A pop finds the oldest byte of the queue, or 0x00, and leaves the rest (42 R105, 20 R63, R64). -/
theorem rbPop_takes_head {s : State} (h : RbInv s) :
    rbAt s s.rbRd = (rbQueue s).headD 0 ∧ rbQueue (rbPop s) = (rbQueue s).tail := by
  cases hq : rbQueue s with
  | nil =>
    obtain ⟨hfront, hpop⟩ := rbPop_of_queue_nil h hq
    exact ⟨hfront, by rw [hpop, hq, List.tail_nil]⟩
  | cons b rest => exact rbPop_queue h hq

/-- Settles O19: the pop's two exits, and its view as a queue. -/
theorem popTakesTheOldestByte : Obligations.PopTakesTheOldestByte := by
  intro s hidle
  rw [exec_pop hidle]
  refine ⟨fun hwf => ⟨_, storedAt_write hwf s.rbRd 0, ?_⟩, fun hinv => ?_⟩
  · rw [rbPop_eq]
    split
    next hempty => rw [hempty]; rfl
    next => rfl
  · obtain ⟨hhead, htail⟩ := rbPop_takes_head hinv
    exact ⟨_, rfl, rbPop_rbInv hinv, congrArg Result.byte hhead, htail⟩

/-- BAT_POLL in the wait for 0xAA (42 R121). -/
theorem exec_batPoll {s : State} (hpc : s.mainPc = .bootWaitBat) (hidle : s.sState = .idle) :
    exec .batPoll s = .next (batPollOnce s) :=
  guarded_next.mpr ⟨by simp [hpc, hidle], rfl⟩

/-- Settles O31: an empty buffer is left alone, and a popped byte is 0xAA or is discarded. -/
theorem batPollWaitsForBatOk : Obligations.BatPollWaitsForBatOk := by
  intro s hpc hidle hwf
  refine ⟨_, storedAt_write hwf s.rbRd 0, ?_⟩
  rw [exec_batPoll hpc hidle, batPollOnce, rbPop_eq]
  by_cases hempty : rbAt s s.rbRd = 0#8
  · have hnot : rbFront s ≠ Config.batOk := by rw [rbFront, hempty]; decide
    rw [if_neg hnot, if_pos hempty, if_pos hempty]
  · rw [if_neg hempty, if_neg hempty]
    rfl

/-- Settles O30: RESEND_SERVICE with and without a request. -/
theorem resendServiceHandsOutTheRequest : Obligations.ResendServiceHandsOutTheRequest := by
  intro s hidle
  refine guarded_next.mpr ⟨beq_iff_eq.mpr hidle, ?_⟩
  split <;> rfl

/-! ## An attempt to send -/

/-- SETTLE_DONE in the wait for the line (42 R108). -/
theorem exec_settleDone {s : State} (h : s.sState = .waitIdle) :
    exec .settleDone s = .next { s with clkOut := false, xBitpos := 0, xRxshift := 0, sState := .inhibit } :=
  guarded_next.mpr ⟨beq_iff_eq.mpr h, rfl⟩

/-- IDLE_TIMEOUT in the wait for the line (42 R109). -/
theorem exec_idleTimeout {s : State} (h : s.sState = .waitIdle) :
    exec .idleTimeout s = .next { s with sState := .idle, sResult := .idleTimeout,
                                         history := s.history ++ [.error (.idleTimeout s.sByte)] } :=
  guarded_next.mpr ⟨beq_iff_eq.mpr h, rfl⟩

/-- Settles O21: the start of a send and the two ends of its wait. -/
theorem sendStartsAndAwaitsTheLine : Obligations.SendStartsAndAwaitsTheLine := fun _ =>
  ⟨fun hidle b => exec_send hidle b, fun hwait => ⟨exec_settleDone hwait, exec_idleTimeout hwait⟩⟩

/-- Settles O22: SETUP_DONE is the beginning of a transmission. -/
theorem setupBeginsTransmission : Obligations.SetupBeginsTransmission := fun _ hst =>
  guarded_next.mpr ⟨beq_iff_eq.mpr hst, rfl⟩

/-- Settles O23: an edge in transmit mode, at each position. -/
theorem transmitEdgePresentsOneBit : Obligations.TransmitEdgePresentsOneBit := by
  intro d s hclk hrec htx
  rw [exec_edge_tx hclk hrec htx]
  refine ⟨fun hlo hhi => ?data, fun hpos => ?parity, fun hpos => ?stop, fun hpos => ?last⟩
  case data => rw [txEdge, if_pos ⟨hlo, hhi⟩]
  all_goals simp [txEdge, hpos]

/-! ## The end of an attempt -/

/-- A failed attempt, its two exits (42 R114). -/
theorem attemptFailed_eq (s : State) : attemptFailed s =
    if s.sAttempt.toNat < 3 then { s with sAttempt := s.sAttempt + 1, sState := .waitIdle }
    else { s with sState := .idle, sResult := .failed, history := s.history ++ [.error (.sendFailed s.sByte)] } :=
  rfl

/-- Settles O26: the three replies that WaitAck can find. -/
theorem ackPollTakesTheOutcome : Obligations.AckPollTakesTheOutcome := by
  intro s hst
  refine ⟨fun hack => ?waiting, fun hack => ?acked, fun hack => ?nacked⟩
  all_goals
    refine guarded_next.mpr ⟨beq_iff_eq.mpr hst, ?_⟩
    rw [hack]
  case nacked => exact congrArg Host.Outcome.next (attemptFailed_eq _)

/-- A transmission cut short is abandoned with no effect on the attempt that is counted (42 R113). -/
theorem abandonTransmit_frame (s : State) :
    abandonTransmit s = { s with xMode := (abandonTransmit s).xMode, xBitpos := (abandonTransmit s).xBitpos,
                                 dataOut := (abandonTransmit s).dataOut } := by
  unfold abandonTransmit
  split <;> rfl

/-- ACK_TIMEOUT in WaitAck with no reply yet (42 R113). -/
theorem exec_ackTimeout {s : State} (hst : s.sState = .waitAck) (hack : s.xAckst = .waiting) :
    exec .ackTimeout s = .next (attemptFailed
      (raise (.ackTimeout s.sByte s.sAttempt) { abandonTransmit s with xAckst := .none })) :=
  guarded_next.mpr ⟨by simp [hst, hack], rfl⟩

/-- Settles O27: the abandoned transmission, then the exits of the failed attempt, after the event of the timeout. -/
theorem ackTimeoutFailsTheAttempt : Obligations.AckTimeoutFailsTheAttempt := by
  intro s hst hack
  change exec .ackTimeout s = .next (
    if s.sAttempt.toNat < 3 then
      { abandonTransmit s with
        xAckst := .none, sAttempt := s.sAttempt + 1, sState := .waitIdle,
        history := s.history ++ [.error (.ackTimeout s.sByte s.sAttempt)] }
    else
      { abandonTransmit s with
        xAckst := .none, sState := .idle, sResult := .failed,
        history := s.history ++ [.error (.ackTimeout s.sByte s.sAttempt), .error (.sendFailed s.sByte)] })
  rw [exec_ackTimeout hst hack, attemptFailed_eq, abandonTransmit_frame, raise]
  simp only [List.append_assoc, List.cons_append, List.nil_append]

/-- An attempt that the device leaves unanswered, without clocking an edge (42 R108, R110, R113). -/
def unanswered : List Instr := [.settleDone, .setupDone, .ackTimeout]

/-- s when an unanswered attempt has ended: the line is released, and the timeout recorded (42 R113). -/
def afterTimeout (s : State) : State :=
  { s with
    clkOut := true, dataOut := true, xMode := .rx, xBitpos := 0, xRxshift := 0, xTxbyte := s.sByte,
    xTxpar := parity s.sByte, xAckst := .none, sState := .waitAck,
    history := s.history ++ [.error (.ackTimeout s.sByte s.sAttempt)] }

/-- An unanswered attempt is a failed one (42 R113, R114). -/
theorem runScript_unanswered {s : State} (h : s.sState = .waitIdle) :
    runScript unanswered s = .next (attemptFailed (afterTimeout s)) := by
  rw [unanswered, runScript, exec_settleDone h]
  rfl

/-- The first and the second unanswered attempt are retried (42 R114). -/
theorem attemptFailed_retry {s : State} (h : s.sAttempt.toNat < 3) :
    attemptFailed s = { s with sAttempt := s.sAttempt + 1, sState := .waitIdle } :=
  if_pos h

/-- The third unanswered attempt ends the send (42 R114). -/
theorem attemptFailed_last {s : State} (h : s.sAttempt = 3#2) :
    attemptFailed s = { s with sState := .idle, sResult := .failed,
                               history := s.history ++ [.error (.sendFailed s.sByte)] } :=
  if_neg (by rw [h]; decide)

/-- Settles O29: two attempts are retried, and the third is the last. -/
theorem sendGivesUpAfterThreeAttempts : Obligations.SendGivesUpAfterThreeAttempts := by
  intro b s hidle
  have hscript : (List.replicate 3 [Instr.settleDone, .setupDone, .ackTimeout]).flatten =
      unanswered ++ (unanswered ++ unanswered) := rfl
  rw [hscript, runScript, exec_send hidle, andThen_of_next, runScript_append, runScript_unanswered rfl,
    attemptFailed_retry (by decide : (1#2).toNat < 3), andThen_of_next, runScript_append, runScript_unanswered rfl,
    attemptFailed_retry (by decide : (2#2).toNat < 3), andThen_of_next, runScript_unanswered rfl, attemptFailed_last rfl]
  exact ⟨_, rfl, rfl, rfl, rfl, rfl, rfl, rfl, by simp [afterTimeout, sendStart]⟩

end Sys2Proof.Machine

/-! What can start a transmission (42_transceiver_tx R116): the interrupt operations leave the send procedure and the clock line
alone, and only SETUP_DONE, and FRAME_TX with it, leaves receive mode. -/

namespace Sys2Proof.Machine

/-! ## Edges -/

/-- A run of edges never moves the clock line or the send procedure (42 R116). -/
theorem runEdges_send {ds : List Bool} {s t : State} (h : runEdges ds s = .next t) :
    t.sState = s.sState ∧ t.sByte = s.sByte ∧ t.sAttempt = s.sAttempt ∧ t.clkOut = s.clkOut := by
  rw [runEdges_frame h]
  exact ⟨rfl, rfl, rfl, rfl⟩

/-- An edge in receive mode stays in it (41 R93). -/
theorem rxEdge_xMode {d : Bool} {s t : State} (h : rxEdge d s = .next t) : t.xMode = s.xMode := by
  obtain ⟨-, rfl⟩ | ⟨-, -, rfl⟩ | ⟨-, rfl⟩ | ⟨-, rfl⟩ := rxEdge_cases h
  · unfold rxStart
    split <;> rfl
  · rfl
  · rfl
  · unfold rxStop
    split
    next => rw [frameDone_frame]
    next => rfl

/-- No edge starts a transmission (41 R93). -/
theorem edgeOp_rxMode {d : Bool} {s t : State} (hrx : s.xMode = .rx) (h : edgeOp d s = .next t) : t.xMode = .rx := by
  obtain ⟨-, ⟨-, rfl⟩ | ⟨-, htx, -⟩ | ⟨-, -, hedge⟩⟩ := edgeOp_cases h
  · exact hrx
  · cases hrx.symm.trans htx
  · exact (rxEdge_xMode hedge).trans hrx

/-- No run of edges starts a transmission (41 R93). -/
theorem runEdges_rxMode {ds : List Bool} {s t : State} (hrx : s.xMode = .rx) (h : runEdges ds s = .next t) :
    t.xMode = .rx := by
  induction ds generalizing s with
  | nil => cases h; exact hrx
  | cons d ds ih =>
    obtain ⟨u, hu, ht⟩ := andThen_next.mp h
    exact ih (edgeOp_rxMode hrx hu) ht

/-! ## Operations that leave the transceiver's mode -/

/-- A quiet operation leaves the transceiver's mode. -/
theorem Quiet.xMode {s t : State} (h : Quiet s t) : t.xMode = s.xMode := by
  rw [Quiet] at h
  rw [h]

/-- A failed attempt, retried or not, leaves the transceiver's mode (42 R114). -/
theorem attemptFailed_xMode (s : State) : (attemptFailed s).xMode = s.xMode := by
  obtain ⟨-, heq⟩ | ⟨-, heq⟩ := attemptFailed_cases s <;> rw [heq]

/-- ACK_POLL leaves the transceiver's mode (42 R112). -/
theorem execAckPoll_xMode {s t : State} (h : execAckPoll s = .next t) : t.xMode = s.xMode := by
  obtain ⟨-, h⟩ := guarded_next.mp h
  cases hack : s.xAckst <;> rw [hack] at h <;> cases h
  case nacked => exact attemptFailed_xMode _
  case waiting | acked => rfl

/-- A pass of the wait for 0xAA leaves the transceiver's mode (42 R121). -/
theorem batPollOnce_xMode (s : State) : (batPollOnce s).xMode = s.xMode := by
  unfold batPollOnce
  split
  next => rw [goto_xMode, rbPop_frame]
  next => rw [rbPop_frame]

/-! ## Macro engine -/

/-- The hotkeys, REPORT and SERVICE touch only the macro store, the host LEDs' request, the output and the returned value
(44 R146 to R155). -/
def MacroOnly (s t : State) : Prop :=
  t = { s with
    mMode := t.mMode, mCursor := t.mCursor, mFill := t.mFill, mLast := t.mLast, mNext := t.mNext, mLedph := t.mLedph,
    mLedt := t.mLedt, steps := t.steps, hDirty := t.hDirty, history := t.history, result := t.result }

/-- Macro operations in sequence. -/
theorem MacroOnly.trans {s t u : State} (hst : MacroOnly s t) (htu : MacroOnly t u) : MacroOnly s u := by
  unfold MacroOnly at *
  rw [htu, hst]

/-- The schedule of the next step (44 R152). -/
theorem scheduleNext_macroOnly {s t : State} (h : scheduleNext s = .next t) : MacroOnly s t := by
  unfold scheduleNext at h
  split at h
  next =>
    split at h
    next => cases h; rfl
    next => cases h
  next => cases h; rfl

/-- A step that is due (44 R152). -/
theorem replayDue_macroOnly {s t : State} (h : replayDue s = .next t) : MacroOnly s t := by
  unfold replayDue at h
  split at h
  next =>
    split at h
    next m _ =>
      have hstep : MacroOnly s { emitStep m s with mCursor := s.mCursor + 1 } := rfl
      exact hstep.trans (scheduleNext_macroOnly h)
    next => cases h
  next => cases h; rfl

/-- The end of a replay (44 R153). -/
theorem replayEnd_macroOnly {s t : State} (h : replayEnd s = .next t) : MacroOnly s t := by
  unfold replayEnd at h
  split at h
  next => cases h; rfl
  next =>
    split at h
    next => cases h; split <;> rfl
    next => cases h

/-- SERVICE's replay part (44 R151). -/
theorem servicePlay_macroOnly {s t : State} (h : servicePlay s = .next t) : MacroOnly s t := by
  unfold servicePlay at h
  split at h
  next =>
    split at h
    next => exact replayDue_macroOnly h
    next => exact replayEnd_macroOnly h
  next => cases h; rfl

/-- SERVICE's LED chase (44 R154). -/
theorem serviceLeds_macroOnly {s t : State} (h : serviceLeds s = .next t) : MacroOnly s t := by
  unfold serviceLeds at h
  split at h
  next =>
    split at h
    next => cases h; rfl
    next => cases h
  next => cases h; rfl

/-- The check for the step that fills the store (44 R150, R157). -/
theorem fullCheck_macroOnly (s : State) : MacroOnly s (fullCheck s) := by
  unfold fullCheck
  split <;> rfl

/-- REPORT stores a step, or nothing (44 R150). -/
theorem execReport_macroOnly {len : BitVec 4} {r : Bytes8} {s t : State} (h : execReport len r s = .next t) :
    MacroOnly s t := by
  unfold execReport at h
  split at h
  next => cases h
  next =>
    split at h
    next => cases h; rfl
    next =>
      split at h
      next => cases h; rfl
      next =>
        split at h
        next =>
          cases h
          have happend (m : MacroStep) : MacroOnly s (stepAppend m s) := rfl
          exact (happend _).trans (fullCheck_macroOnly _)
        next => cases h

/-- SERVICE is its replay part and the chase (44 R151). -/
theorem execService_macroOnly {s t : State} (h : execService s = .next t) : MacroOnly s t := by
  obtain ⟨-, h⟩ := guarded_next.mp h
  obtain ⟨u, hplay, hleds⟩ := andThen_next.mp h
  exact (servicePlay_macroOnly hplay).trans (serviceLeds_macroOnly hleds)

/-- REC_HOTKEY (44 R147). -/
theorem execRecHotkey_macroOnly {s t : State} (h : execRecHotkey s = .next t) : MacroOnly s t := by
  unfold execRecHotkey at h
  split at h <;> cases h <;> rfl

/-- PLAY_HOTKEY (44 R148). -/
theorem execPlayHotkey_macroOnly {s t : State} (h : execPlayHotkey s = .next t) : MacroOnly s t := by
  unfold execPlayHotkey at h
  split at h <;> cases h <;> rfl

/-- OTHER_PRESS (44 R149). -/
theorem execOtherPress_macroOnly {s t : State} (h : execOtherPress s = .next t) : MacroOnly s t := by
  cases h
  split <;> rfl

/-- A macro operation leaves the transceiver's mode. -/
theorem MacroOnly.xMode {s t : State} (h : MacroOnly s t) : t.xMode = s.xMode := by
  rw [MacroOnly] at h
  rw [h]

/-! ## Every instruction -/

/-- No interrupt operation moves the clock line or the send procedure (42 R116). -/
theorem exec_interrupt_send {i : Instr} {s t : State} (hi : isInterrupt i = true) (h : exec i s = .next t) :
    t.sState = s.sState ∧ t.sByte = s.sByte ∧ t.sAttempt = s.sAttempt ∧ t.clkOut = s.clkOut := by
  cases i with
  | edge d =>
    obtain ⟨hclk, hst, hbyte, hattempt, -⟩ := edgeOp_send h
    exact ⟨hst, hbyte, hattempt, hclk⟩
  | frameRx | respAck | respZero => exact runEdges_send h
  | recoveryDone =>
    obtain ⟨-, h⟩ := guarded_next.mp h
    cases h
    exact ⟨rfl, rfl, rfl, rfl⟩
  | tick | hostLed => cases h; exact ⟨rfl, rfl, rfl, rfl⟩
  | _ => cases hi

/-- Only SETUP_DONE, and FRAME_TX with it, leaves receive mode (42 R116, log 10). -/
theorem exec_rxMode {i : Instr} {s t : State} (hrx : s.xMode = .rx) (hsetup : i ≠ .setupDone)
    (hframe : ∀ d p a, i ≠ .frameTx d p a) (h : exec i s = .next t) : t.xMode = .rx := by
  cases i with
  | setupDone => exact absurd rfl hsetup
  | frameTx d p a => exact absurd rfl (hframe d p a)
  | edge d => exact edgeOp_rxMode hrx h
  | frameRx | respAck | respZero => exact runEdges_rxMode hrx h
  | respBatOk =>
    obtain ⟨u, hedges, hwait⟩ := andThen_next.mp h
    cases hwait
    have hu : u.xMode = .rx := runEdges_rxMode hrx hedges
    rw [batWait_frame]
    exact hu
  | reset => cases h; rfl
  | batTimeout =>
    obtain ⟨-, h⟩ := guarded_next.mp h
    cases h
    rfl
  | recoveryDone | settleDone | idleTimeout | send | cmdReset | cmdScanset2 | cmdSetLeds | cmdResend | cmdLeave =>
    obtain ⟨-, h⟩ := guarded_next.mp h
    cases h
    exact hrx
  | pop =>
    obtain ⟨-, h⟩ := guarded_next.mp h
    cases h
    rw [ret_xMode, rbPop_frame]
    exact hrx
  | batPoll =>
    obtain ⟨-, h⟩ := guarded_next.mp h
    cases h
    exact (batPollOnce_xMode s).trans hrx
  | ackTimeout =>
    obtain ⟨-, h⟩ := guarded_next.mp h
    cases h
    obtain ⟨habandoned, -⟩ := abandonTransmit_rx s
    exact (attemptFailed_xMode _).trans habandoned
  | ackPoll => exact (execAckPoll_xMode h).trans hrx
  | resendService | ledApply =>
    obtain ⟨-, h⟩ := guarded_next.mp h
    split at h <;> cases h <;> exact hrx
  | recHotkey => exact (execRecHotkey_macroOnly h).xMode.trans hrx
  | playHotkey => exact (execPlayHotkey_macroOnly h).xMode.trans hrx
  | otherPress => exact (execOtherPress_macroOnly h).xMode.trans hrx
  | report => exact (execReport_macroOnly h).xMode.trans hrx
  | service => exact (execService_macroOnly h).xMode.trans hrx
  | decode b => cases h; exact (decodeByte_quiet b s).xMode.trans hrx
  | tick | hostLed | cmdEnter | modsClear | parity => cases h; exact hrx
  | reserved1A1B | reserved1C1F => cases h
  | _ => exact (exec_scanByte_quiet rfl h).xMode.trans hrx

/-- Settles O32: what each interrupt operation leaves alone, and the mode that every other instruction keeps. -/
theorem interruptsNeverSend : Obligations.InterruptsNeverSend := by
  intro i s t h
  refine ⟨fun hi => exec_interrupt_send hi h, fun htx hrx => ?_⟩
  by_contra hnot
  obtain ⟨hsetup, hframe⟩ := not_or.mp hnot
  have hkept : t.xMode = .rx := exec_rxMode hrx hsetup (fun d p a hi => hframe ⟨d, p, a, hi⟩) h
  cases htx.symm.trans hkept

end Sys2Proof.Machine

/-! The scan-code decoder (43_decoder), continued: what DECODE's triple says of the byte and of the state it leaves, the rows that
give no event, the modifiers, and the control operations. -/

namespace Sys2Proof.Machine

/-! ## The triple of a row -/

/-- A byte is read back from its word. -/
theorem byteWord_inj {a b : Byte} (h : byteWord a = byteWord b) : a = b := by
  rw [← byteWord_low a, h, byteWord_low]

/-- An event chosen by K_REL is a press or a release. -/
theorem eventByRel_ne_none (s : State) : eventByRel s ≠ .none := by
  unfold eventByRel
  split <;> nofun

/-- A code given by a number of at most 24 bits, not 0, is in the range of 30 R81. -/
theorem code_range {n : Nat} (hpos : 0 < n) (hlt : n < 0x1000000) :
    (BitVec.ofNat 32 n).toNat < 0x1000000 ∧ BitVec.ofNat 32 n ≠ 0#32 := by
  have hn : (BitVec.ofNat 32 n).toNat = n := Nat.mod_eq_of_lt (hlt.trans (by decide))
  refine ⟨hn.trans_lt hlt, fun hzero => hpos.ne ?_⟩
  rw [← hn, hzero, BitVec.toNat_zero]

/-- What 43 R143 requires of an event with code c that the row i gives for the byte b on the way to t: b is not 0xF0, 0xE0 or 0xE1,
i is one of the rows of final bytes, and the sequence is over. -/
structure EndsSequence (b : Byte) (i : Instr) (c : Code) (t : State) : Prop where
  released : t.kRel = false
  mode : t.kMode = .key
  finalByte : b ∉ [0xF0#8, 0xE0#8, 0xE1#8]
  code : c.toNat < 0x1000000 ∧ c ≠ 0#32
  row : i ∈ [.scanExt2Byte77, .scanExtPlain b, .scanKeyPlain b]

/-- A final byte of Key ends its sequence (43 R138). -/
theorem scanKeyPlain_endsSequence {b : Byte} (hb : isKeyPlain b = true) {s : State} (hmode : s.kMode = .key) :
    EndsSequence b (.scanKeyPlain b) (BitVec.ofNat 32 b.toNat) (scanKeyCode b s) := by
  obtain ⟨h0, hF0, hE0, hE1, -⟩ := (isKeyPlain_iff b).mp hb
  have hpos : 0 < b.toNat := Nat.pos_of_ne_zero fun hzero => h0 (BitVec.eq_of_toNat_eq hzero)
  exact ⟨rfl, hmode, by simp [hF0, hE0, hE1], code_range hpos (by omega), by simp⟩

/-- A final byte of ExtendedKey ends its sequence (43 R136). -/
theorem scanExtPlain_endsSequence {b : Byte} (hb : isExtPlain b = true) (s : State) :
    EndsSequence b (.scanExtPlain b) (BitVec.ofNat 32 (0xE000 + b.toNat)) (scanExtCode b s) := by
  obtain ⟨-, hF0, hE0, hE1, -⟩ := (isExtPlain_iff b).mp hb
  exact ⟨rfl, rfl, by simp [hF0, hE0, hE1], code_range (by omega) (by omega), by simp⟩

/-- The last byte of the pause sequence ends it (43 R132). -/
theorem scanExt2Byte77_endsSequence (s : State) :
    EndsSequence 0x77 .scanExt2Byte77 Config.pauseCode (scanPause s) :=
  ⟨rfl, rfl, by decide, by decide, by simp⟩

/-- The triple of a row of the byte map: no event and no code, or an event by K_REL that ends the sequence (43 R125 to R138). -/
theorem exec_scanByte_result {i : Instr} {b : Byte} {s t : State} (hfmt : formatOf i = .scanByte) (hword : wordOf i = byteWord b)
    (h : exec i s = .next t) :
    t.result = .decoded t.kMods 0 .none ∨ ∃ c, t.result = .decoded t.kMods c (eventByRel s) ∧ EndsSequence b i c t := by
  cases i with
  | scanKeyPlain a =>
    obtain ⟨⟨hwf, hsel⟩, rfl⟩ := scanRowOp_next.mp h
    obtain rfl := byteWord_inj hword
    exact .inr ⟨_, congrArg State.result (scanKeyCode_eq a s), scanKeyPlain_endsSequence hwf (beq_iff_eq.mp hsel)⟩
  | scanExtPlain a =>
    obtain ⟨⟨hwf, -⟩, rfl⟩ := scanRowOp_next.mp h
    obtain rfl := byteWord_inj hword
    exact .inr ⟨_, congrArg State.result (scanExtCode_eq a s), scanExtPlain_endsSequence hwf s⟩
  | scanExt2Byte77 =>
    obtain ⟨-, rfl⟩ := scanRowOp_next.mp h
    obtain rfl : 0x77 = b := byteWord_inj hword
    exact .inr ⟨_, rfl, scanExt2Byte77_endsSequence s⟩
  | scanZero | scanBreakF0 | scanExtE0 | scanPauseE1 | scanExt2Prefix | scanExt2Byte14 | scanExt2Other | scanExtDiscard
  | scanExtDiscard59 | scanExtMod | scanKeyMod | scanCommand =>
    obtain ⟨-, rfl⟩ := scanRowOp_next.mp h
    exact .inl rfl
  | _ => cases hfmt

/-- Settles O37: DECODE is the row its byte selects, and the triple of a row says which kind of row it is. -/
theorem eventEndsTheSequence : Obligations.EventEndsTheSequence := by
  intro b s t mods c ev h hresult
  obtain ⟨-, -, hfmt, hword, -⟩ := scanRow_spells s.kMode s.kP2 b Bytes8.zero
  have hrow : exec (scanRow s.kMode s.kP2 b) s = .next t := (exec_scanRow b s).trans h
  obtain hsilent | ⟨code, hevent, hends⟩ := exec_scanByte_result hfmt hword hrow
  · obtain ⟨rfl, rfl, rfl⟩ := Result.decoded.inj (hresult.symm.trans hsilent)
    exact ⟨rfl, fun _ => rfl, fun hev => absurd rfl hev⟩
  · obtain ⟨rfl, rfl, rfl⟩ := Result.decoded.inj (hresult.symm.trans hevent)
    obtain ⟨hrel, hmode, hfinal, ⟨hbound, hnonzero⟩, hevRow⟩ := hends
    exact ⟨rfl, fun hnone => absurd hnone (eventByRel_ne_none s),
      fun _ => ⟨hrel, hmode, hfinal, hbound, hnonzero, hevRow⟩⟩

/-! ## Rows without an event -/

/-- The bytes that abandon the pause sequence, listed (30 R79). -/
theorem isExt2Other_of_notMem {b : Byte} (hb : b ∉ [0x00#8, 0xF0#8, 0xE0#8, 0xE1#8]) : isExt2Other b = true := by
  rw [isExt2Other_iff]
  simpa using hb

/-- Any byte but the continuation byte that K_P2 expects selects SCAN_EXT2_OTHER (43 R133). -/
theorem selects_scanExt2Other {b : Byte} {p2 : Bool} (h14 : ¬(b = 0x14#8 ∧ p2 = false)) (h77 : ¬(b = 0x77#8 ∧ p2 = true)) :
    selects (.scanExt2Other b) .extendedKey2 p2 = true := by
  simpa [selects, imp_iff_not_or] using And.intro h14 h77

/-- Settles O34: each row stands in its selector, so that it has its effect. -/
theorem silentRows : Obligations.SilentRows := by
  intro b x s silent
  refine ⟨fun hmode => ?_, fun hmode => ?_, fun hmode => ?_, fun hmode => ⟨?_, ?_⟩, fun hmode => ⟨?_, ?_⟩,
    fun hmode => ⟨fun hp2 => ?_, ?_, fun hb h14 h77 => ?_⟩⟩
  · exact scanRowOp_of_wf (i := .scanCommand b) rfl (by simp [selects, hmode]) _
  · exact scanRowOp_of_wf (i := .scanZero) rfl (by simp [selects, hmode]) _
  · exact scanRowOp_of_wf (i := .scanBreakF0) rfl (by simp [selects, hmode]) _
  · exact scanRowOp_of_wf (i := .scanExtE0) rfl (by simpa [selects] using hmode) _
  · exact scanRowOp_of_wf (i := .scanPauseE1) rfl (by simpa [selects] using hmode) _
  · exact scanRowOp_of_wf (i := .scanExtDiscard) rfl (by simp [selects, hmode]) _
  · exact scanRowOp_of_wf (i := .scanExtDiscard59) rfl (by simp [selects, hmode]) _
  · exact scanRowOp_of_wf (i := .scanExt2Byte14) rfl (by simp [selects, hmode, hp2]) _
  · exact scanRowOp_of_wf (i := .scanExt2Prefix x) rfl (by simp [selects, hmode]) _
  · exact scanRowOp_of_wf (i := .scanExt2Other b) (isExt2Other_of_notMem hb) (hmode ▸ selects_scanExt2Other h14 h77) _

/-! ## Modifiers -/

/-- Key's modifier bytes with their bits of K_MODS (43 R137). -/
theorem keyModBit_of_mem : ∀ p ∈ [(0x14#8, 0), (0x12#8, 1), (0x11#8, 2), (0x59#8, 5)],
    keyModBit p.1 = some p.2 ∧ p.2 < 8 := by
  decide

/-- ExtendedKey's modifier bytes with their bits of K_MODS (43 R135). -/
theorem extModBit_of_mem : ∀ p ∈ [(0x14#8, 4), (0x11#8, 6), (0x1F#8, 3), (0x27#8, 7)],
    extModBit p.1 = some p.2 ∧ p.2 < 8 := by
  decide

/-- A modifier byte in Key writes its bit of K_MODS (43 R137). -/
theorem exec_scanKeyMod {b : Byte} {k : Nat} {s : State} (hmode : s.kMode = .key) (hbit : keyModBit b = some k) :
    exec (.scanKeyMod b) s = .next (scanKeyModifier k s) := by
  have hk : (keyModBit b).getD 0 = k := Option.getD_eq_iff.mpr (.inl hbit)
  rw [← hk]
  exact scanRowOp_of_wf (i := .scanKeyMod b) (Option.isSome_of_eq_some hbit) (by simp [selects, hmode]) _

/-- A modifier byte in ExtendedKey writes its bit of K_MODS (43 R135). -/
theorem exec_scanExtMod {b : Byte} {k : Nat} {s : State} (hmode : s.kMode = .extendedKey) (hbit : extModBit b = some k) :
    exec (.scanExtMod b) s = .next (scanExtModifier k s) := by
  have hk : (extModBit b).getD 0 = k := Option.getD_eq_iff.mpr (.inl hbit)
  rw [← hk]
  exact scanRowOp_of_wf (i := .scanExtMod b) (Option.isSome_of_eq_some hbit) (by simp [selects, hmode]) _

/-- Settles O36: the bit that a modifier's row writes is the byte's, and K_REL gives its value. -/
theorem modifierRows : Obligations.ModifierRows := by
  intro s k
  refine ⟨fun b hmode hb => ?_, fun b hmode hb => ?_⟩
  · obtain ⟨hbit, hk⟩ := keyModBit_of_mem (b, k) hb
    exact ⟨putBit s.kMods k (!s.kRel), exec_scanKeyMod hmode hbit, fun j => putBit_getLsbD s.kMods k _ j hk⟩
  · obtain ⟨hbit, hk⟩ := extModBit_of_mem (b, k) hb
    exact ⟨putBit s.kMods k (!s.kRel), exec_scanExtMod hmode hbit, fun j => putBit_getLsbD s.kMods k _ j hk⟩

/-! ## Control operations -/

/-- Settles O39: CMD_LEAVE's precondition is its hypothesis, and the other two have none. -/
theorem decoderControlOperations : Obligations.DecoderControlOperations := fun _ =>
  ⟨rfl, fun hmode => guarded_next.mpr ⟨beq_iff_eq.mpr hmode, rfl⟩, rfl⟩

end Sys2Proof.Machine

/-! The macro engine (44_macro): the hotkeys, REPORT as a step appended to the store, SERVICE as its replay part and the LED chase,
the transitions of the mode, and the reports of a whole replay. -/

namespace Sys2Proof.Machine

/-! ## The bytes of a report -/

/-- A list of at most eight bytes, made eight, is the list and then 0x00 up to index 7 (44 R150). -/
theorem bytesOf_bytes8 {l : List Byte} (h : l.length ≤ 8) :
    bytesOf (bytes8 l) = l ++ List.replicate (8 - l.length) 0#8 := by
  have hget : bytesOf (bytes8 l) = (List.range 8).map fun k => l.getD k 0#8 := rfl
  rw [hget]
  refine List.ext_getElem (by simp; omega) fun k hk _ => ?_
  by_cases hkl : k < l.length
  · simp [hkl]
  · simp [hkl, List.getElem_append_right (Nat.not_lt.mp hkl)]

/-- The stored bytes of a report: its first len, then 0x00 up to index 7 (44 R150). -/
theorem bytesOf_padded {len : BitVec 4} (h : len.toNat ≤ 8) (r : Bytes8) :
    bytesOf (padded len r) = (bytesOf r).take len.toNat ++ List.replicate (8 - len.toNat) 0#8 := by
  have hlen : (firstBytes len r).length = len.toNat := by simpa [firstBytes, bytesOf] using h
  rw [padded, bytesOf_bytes8 (hlen.trans_le h), hlen, firstBytes]

/-- A report is empty exactly when its first len bytes are 0x00 (00 R14). -/
theorem emptyReport_iff {len : BitVec 4} {r : Bytes8} :
    emptyReport len r = true ↔ ∀ b ∈ (bytesOf r).take len.toNat, b = 0#8 := by
  simp [emptyReport, firstBytes]

/-- A report handed to the sender is the next of the reports (10 R54). -/
theorem reportsOf_append_usb (h : List Output) (r : List Byte) : reportsOf (h ++ [.usb r]) = reportsOf h ++ [r] := by
  simp [reportsOf]

/-! ## Hotkeys -/

/-- Settles O40: each operation by its case over the mode. -/
theorem hotkeysMoveTheMode : Obligations.HotkeysMoveTheMode := by
  intro s
  refine ⟨?recHotkey, ?playHotkey, ?otherPress⟩
  case recHotkey =>
    change execRecHotkey s = _
    unfold execRecHotkey
    cases s.mMode <;> rfl
  case playHotkey =>
    change execPlayHotkey s = _
    unfold execPlayHotkey
    cases s.mMode <;> rfl
  case otherPress =>
    change execOtherPress s = _
    unfold execOtherPress
    cases s.mMode <;> rfl

/-! ## REPORT -/

/-- REPORT outside a recording does nothing (44 R150). -/
theorem exec_report_ignored {len : BitVec 4} {s : State} (hlen : validLen len = true) (hmode : s.mMode ≠ .recording)
    (r : Bytes8) : exec (.report len r) s = .next s := by
  change execReport len r s = _
  rw [execReport, if_neg (by simp [hlen]), if_pos hmode]

/-- An empty report is filtered as the first step (44 R150). -/
theorem exec_report_filtered {len : BitVec 4} {r : Bytes8} {s : State} (hlen : validLen len = true)
    (hmode : s.mMode = .recording) (hfirst : s.mFill = 0#6) (hempty : emptyReport len r = true) :
    exec (.report len r) s = .next s := by
  change execReport len r s = _
  rw [execReport, if_neg (by simp [hlen]), if_neg (by simp [hmode]), if_pos ⟨hfirst, hempty⟩]

/-- Any other report of a recording with room is stored (44 R150). -/
theorem exec_report_stores {len : BitVec 4} {r : Bytes8} {s : State} (hlen : validLen len = true)
    (hmode : s.mMode = .recording) (hkept : ¬(s.mFill = 0#6 ∧ emptyReport len r = true))
    (hroom : s.mFill.toNat < Config.macroCap) :
    exec (.report len r) s = .next (fullCheck (stepAppend (newStep len r s) s)) := by
  change execReport len r s = _
  rw [execReport, if_neg (by simp [hlen]), if_neg (by simp [hmode]), if_neg hkept, if_pos hroom]

/-- What storing a step does: the one that fills the store, the fortieth, also stops the recording (44 R150, R157). -/
theorem fullCheck_stepAppend (m : MacroStep) {s : State} (hroom : s.mFill.toNat < Config.macroCap) :
    fullCheck (stepAppend m s) =
      { s with
        steps := (stepSet s s.mFill.toNat m).steps, mFill := s.mFill + 1, mCursor := s.mFill + 1, mLast := s.tMs,
        mMode := if s.mFill = 39#6 then .stopped else s.mMode,
        hDirty := if s.mFill = 39#6 then true else s.hDirty,
        history := if s.mFill = 39#6 then s.history ++ [.error .macroFull] else s.history } := by
  by_cases hlast : s.mFill = 39#6
  · rw [fullCheck_stepAppend_full m s (by rw [hlast]; rfl)]
    simp only [if_pos hlast, stepSet_steps]
  · have hnext : (s.mFill + 1).toNat ≠ Config.macroCap := by simp only [Config.macroCap] at hroom ⊢; bv_omega
    rw [fullCheck_stepAppend_room m s hnext]
    simp only [if_neg hlast, stepSet_steps]

/-- The delay a recording stores: zero for the first step, else a third of the time since the step before (44 R150). -/
theorem stepDelay_toNat (s : State) :
    (stepDelay s).toNat = if s.mFill = 0#6 then 0 else (s.tMs - s.mLast).toNat / 3 := by
  unfold stepDelay
  split
  next => rfl
  next => exact BitVec.toNat_udiv

/-- Settles O42: the step is read back from slot M_FILL, and no other slot is written. -/
theorem reportAppendsAStep : Obligations.ReportAppendsAStep := by
  intro len r s hlo hhi data
  have hlen : validLen len = true := decide_eq_true ⟨hlo, hhi⟩
  refine ⟨fun hmode => exec_report_ignored hlen hmode r,
    fun hmode hfirst hempty => exec_report_filtered hlen hmode hfirst (emptyReport_iff.mpr hempty),
    fun hmode hroom hkept => ?_⟩
  rw [← emptyReport_iff] at hkept
  have hstores := exec_report_stores hlen hmode hkept hroom
  rw [fullCheck_stepAppend _ hroom, hmode] at hstores
  exact ⟨_, newStep len r s, hstores, rfl, stepAt_stepSet_same s _ hroom, rfl, bytesOf_padded hhi r, stepDelay_toNat s,
    fun j hj => stepAt_stepSet_other s _ hj⟩

/-! ## The LED chase -/

/-- The byte of a chase pattern (00 R8, 44 R154). -/
theorem chasePattern_getElem (s : State) {ph : Nat} (h : ph < Config.ledPhases) :
    (chasePattern s)[ph]? =
      some ((if s.mMode = .replaying then [0x01#8, 0x02#8, 0x04#8] else [0x04#8, 0x02#8, 0x01#8]).getD ph 0) := by
  have hlen : ph < (chasePattern s).length := chasePattern_length s ▸ h
  rw [List.getElem?_eq_getElem hlen]
  exact congrArg some (List.getD_eq_getElem _ _ hlen).symm

/-- With the macro stopped no chase byte is due (44 R154). -/
theorem serviceLeds_stopped {s : State} (hmode : s.mMode = .stopped) : serviceLeds s = .next { s with result := .none } := by
  rw [serviceLeds, if_neg (by simp [hmode])]
  rfl

/-- The chase in an active mode: the byte of the phase when it is due, and the next phase 166 ms from now (44 R154). -/
theorem serviceLeds_active {s : State} (hmode : s.mMode ≠ .stopped) (hph : s.mLedph.toNat < Config.ledPhases) :
    serviceLeds s = .next (
      if s.mLedt.toNat ≤ s.tMs.toNat then
        { s with
          result := .byte ((if s.mMode = .replaying then [0x01#8, 0x02#8, 0x04#8] else [0x04#8, 0x02#8, 0x01#8]).getD
            s.mLedph.toNat 0),
          mLedph := BitVec.ofNat 2 ((s.mLedph.toNat + 1) % 3), mLedt := s.tMs + 166 }
      else { s with result := .none }) := by
  unfold serviceLeds
  by_cases hdue : s.mLedt.toNat ≤ s.tMs.toNat
  · rw [if_pos ⟨hmode, decide_eq_true hdue⟩, chasePattern_getElem s hph, if_pos hdue]
    rfl
  · rw [if_neg (by simp [ge32, hdue]), if_neg hdue]
    rfl

/-- The chase touches only its phase, its time and the returned value (44 R154). -/
theorem serviceLeds_frame {s t : State} (h : serviceLeds s = .next t) :
    t = { s with mLedph := t.mLedph, mLedt := t.mLedt, result := t.result } := by
  unfold serviceLeds at h
  split at h
  next =>
    split at h
    next => cases h; rfl
    next => cases h
  next => cases h; rfl

/-! ## SERVICE's replay part -/

/-- While no replay is on, the replay part does nothing (44 R151). -/
theorem servicePlay_notReplaying {s : State} (hmode : s.mMode ≠ .replaying) : servicePlay s = .next s := if_neg hmode

/-- Before the next step's time, the replay part does nothing (44 R152). -/
theorem servicePlay_early {s : State} (hmode : s.mMode = .replaying) (hcur : s.mCursor.toNat < s.mFill.toNat)
    (hearly : s.tMs.toNat < s.mNext.toNat) : servicePlay s = .next s := by
  rw [servicePlay, if_pos hmode, if_pos hcur, replayDue, if_neg (by simp [ge32, hearly])]

/-- With no step left, the replay part is the end of the replay (44 R151). -/
theorem servicePlay_end {s : State} (hmode : s.mMode = .replaying) (hcur : s.mFill.toNat ≤ s.mCursor.toNat) :
    servicePlay s = replayEnd s := by
  rw [servicePlay, if_pos hmode, if_neg (Nat.not_lt.mpr hcur)]

/-- What the replay part can do: wait, send a due step, or end the replay (44 R151). -/
theorem servicePlay_cases {s t : State} (h : servicePlay s = .next t) :
    (t = s ∧ (s.mMode = .replaying → s.mCursor.toNat < s.mFill.toNat ∧ s.tMs.toNat < s.mNext.toNat)) ∨
    (s.mMode = .replaying ∧ s.mCursor.toNat < s.mFill.toNat ∧
      ∃ m, stepAt s s.mCursor.toNat = some m ∧
        scheduleNext { emitStep m s with mCursor := s.mCursor + 1 } = .next t) ∨
    (s.mMode = .replaying ∧ s.mFill.toNat ≤ s.mCursor.toNat ∧ replayEnd s = .next t) := by
  unfold servicePlay at h
  split at h
  next hmode =>
    split at h
    next hcur =>
      unfold replayDue at h
      split at h
      next =>
        split at h
        next m hm => exact .inr (.inl ⟨hmode, hcur, m, hm, h⟩)
        next => cases h
      next hdue =>
        cases h
        have hearly : s.tMs.toNat < s.mNext.toNat := by simpa [ge32] using hdue
        exact .inl ⟨rfl, fun _ => ⟨hcur, hearly⟩⟩
    next hcur => exact .inr (.inr ⟨hmode, Nat.not_lt.mp hcur, h⟩)
  next hmode => cases h; exact .inl ⟨rfl, fun hrep => absurd hrep hmode⟩

/-- What a sent step leaves behind: its report, the cursor past it, and the schedule moved by the delay of the step after it, if
there is one (44 R152). -/
structure Sent (m : MacroStep) (s t : State) : Prop where
  frame : t = { s with mCursor := s.mCursor + 1, mNext := t.mNext, history := s.history ++ [.usb (firstBytes m.len m.data)] }
  last : s.mCursor.toNat + 1 = s.mFill.toNat → t.mNext = s.mNext
  more : s.mCursor.toNat + 1 < s.mFill.toNat →
    ∃ n, stepAt s (s.mCursor.toNat + 1) = some n ∧ t.mNext = s.mNext + n.delay

/-- The cursor inside the recording moves on without wrapping (10 R43). -/
theorem nextCursor_toNat {s : State} (hcur : s.mCursor.toNat < s.mFill.toNat) :
    (s.mCursor + 1).toNat = s.mCursor.toNat + 1 := by bv_omega

/-- A step emitted and scheduled after is sent (44 R152). -/
theorem scheduleNext_sent {m : MacroStep} {s t : State} (hcur : s.mCursor.toNat < s.mFill.toNat)
    (h : scheduleNext { emitStep m s with mCursor := s.mCursor + 1 } = .next t) : Sent m s t := by
  unfold scheduleNext at h
  simp only [nextCursor_toNat hcur] at h
  split at h
  next hmore =>
    change s.mCursor.toNat + 1 < s.mFill.toNat at hmore
    split at h
    next n hn =>
      cases h
      exact ⟨rfl, fun hlast => absurd hmore (by omega), fun _ => ⟨n, hn, rfl⟩⟩
    next => cases h
  next hlast => cases h; exact ⟨rfl, fun _ => rfl, fun hmore => absurd hmore hlast⟩

/-- With a step due, the replay part sends it (44 R151, R152). -/
theorem servicePlay_due {s : State} {m : MacroStep} (hmode : s.mMode = .replaying) (hfill : s.mFill.toNat ≤ Config.macroCap)
    (hcur : s.mCursor.toNat < s.mFill.toNat) (hdue : s.mNext.toNat ≤ s.tMs.toNat)
    (hm : stepAt s s.mCursor.toNat = some m) : ∃ u, servicePlay s = .next u ∧ Sent m s u := by
  obtain ⟨u, hplay, -⟩ := servicePlay_completes hfill
  refine ⟨u, hplay, ?_⟩
  obtain ⟨-, hwaits⟩ | ⟨-, -, m', hm', hnext⟩ | ⟨-, hend, -⟩ := servicePlay_cases hplay
  · obtain ⟨-, hearly⟩ := hwaits hmode
    exact absurd hearly (Nat.not_lt.mpr hdue)
  · cases hm.symm.trans hm'
    exact scheduleNext_sent hcur hnext
  · exact absurd hend (Nat.not_le.mpr hcur)

/-- A replay whose last step was empty ends without a report of its own (44 R153). -/
theorem replayEnd_silent {s : State} {m : MacroStep} (hpos : 0 < s.mFill.toNat)
    (hm : stepAt s (s.mFill.toNat - 1) = some m) (hempty : emptyReport m.len m.data = true) :
    replayEnd s = .next (macroStop s) := by
  have hsome : s.mFill ≠ 0#6 := by bv_omega
  rw [replayEnd, if_neg hsome, hm]
  simp only [if_pos hempty]

/-- Any other replay, one of no step at all too, ends with the release of all keys (44 R153). -/
theorem replayEnd_release {s : State} (hfill : s.mFill.toNat ≤ Config.macroCap)
    (hlast : ∀ m, 0 < s.mFill.toNat → stepAt s (s.mFill.toNat - 1) = some m → emptyReport m.len m.data = false) :
    replayEnd s = .next (macroStop (emitRelease s)) := by
  unfold replayEnd
  split
  next => rfl
  next hsome =>
    have hpos : 0 < s.mFill.toNat := by bv_omega
    obtain ⟨m, hm⟩ := stepAt_inBounds s (j := s.mFill.toNat - 1) (by omega)
    simp [hm, hlast m hpos hm]

/-- However it ends, the replay is over and the LED restore requested (44 R153, R155). -/
theorem replayEnd_stops {s t : State} (h : replayEnd s = .next t) : t.mMode = .stopped ∧ t.hDirty = true := by
  unfold replayEnd at h
  split at h
  next => cases h; exact ⟨rfl, rfl⟩
  next =>
    split at h
    next => cases h; exact ⟨rfl, rfl⟩
    next => cases h

/-! ## SERVICE -/

/-- Between sends, SERVICE is its replay part and the chase (44 R151). -/
theorem exec_service {s : State} (hidle : s.sState = .idle) : exec .service s = andThen (servicePlay s) serviceLeds := by
  change execService s = _
  rw [execService, hidle]
  rfl

/-- Settles O43: the replay part waits, and the chase runs. -/
theorem serviceAdvancesTheChase : Obligations.ServiceAdvancesTheChase := by
  intro s hidle
  rw [exec_service hidle]
  refine ⟨fun hmode => ?stopped, fun hph hactive => ?active⟩
  case stopped => rw [servicePlay_notReplaying (by simp [hmode]), andThen_of_next, serviceLeds_stopped hmode]
  case active =>
    have hplay : servicePlay s = .next s := hactive.elim
      (fun hrec => servicePlay_notReplaying (by simp [hrec]))
      (fun ⟨hrep, hcur, hearly⟩ => servicePlay_early hrep hcur hearly)
    have hmode : s.mMode ≠ .stopped := fun hstop => by simp [hstop] at hactive
    rw [hplay, andThen_of_next, serviceLeds_active hmode hph]

/-- Settles O45: the end of the replay, after which the chase returns none. -/
theorem serviceEndsTheReplay : Obligations.ServiceEndsTheReplay := by
  intro s hidle hmode hcur hfill lastEmpty stopped
  rw [exec_service hidle, servicePlay_end hmode hcur]
  refine ⟨fun ⟨m, hpos, hm, hempty⟩ => ?silent, fun hnot => ?release⟩
  case silent =>
    rw [replayEnd_silent hpos hm (emptyReport_iff.mpr hempty), andThen_of_next, serviceLeds_stopped rfl]
    rfl
  case release =>
    have hlast : ∀ m, 0 < s.mFill.toNat → stepAt s (s.mFill.toNat - 1) = some m → emptyReport m.len m.data = false :=
      fun m hpos hm => Bool.eq_false_iff.mpr fun hempty => hnot ⟨m, hpos, hm, emptyReport_iff.mp hempty⟩
    rw [replayEnd_release hfill hlast, andThen_of_next, serviceLeds_stopped rfl]
    rfl

/-- Settles O44: the replay part sends the step, and the chase runs on the state it leaves. -/
theorem serviceReplaysOneDueStep : Obligations.ServiceReplaysOneDueStep := by
  intro s m hidle hmode hph hfill hcur hdue hm
  obtain ⟨u, hplay, hframe, hlast, hmore⟩ := servicePlay_due hmode hfill hcur hdue hm
  have hrep : u.mMode = .replaying := by rw [hframe]; exact hmode
  have hleds := serviceLeds_active (s := u) (by simp [hrep]) (by rw [hframe]; exact hph)
  rw [if_pos hrep] at hleds
  generalize u.mNext = next at hframe hlast hmore
  subst hframe
  rw [exec_service hidle, hplay, andThen_of_next, hleds]
  have hschedule : ∀ n, s.mCursor.toNat + 1 < s.mFill.toNat → stepAt s (s.mCursor.toNat + 1) = some n →
      next = s.mNext + n.delay := by
    intro n hlt hn
    obtain ⟨n', hn', heq⟩ := hmore hlt
    cases hn.symm.trans hn'
    exact heq
  refine ⟨_, rfl, ?_⟩
  by_cases hled : s.mLedt.toNat ≤ s.tMs.toNat
  · simp only [if_pos hled]
    exact ⟨rfl, hlast, hschedule⟩
  · simp only [if_neg hled]
    exact ⟨rfl, hlast, hschedule⟩

/-! ## Transitions of the mode -/

/-- A quiet operation leaves the mode of the macro engine. -/
theorem Quiet.mMode {s t : State} (h : Quiet s t) : t.mMode = s.mMode := by
  rw [Quiet] at h
  rw [h]

/-- A run of edges leaves the mode of the macro engine (44 R145). -/
theorem runEdges_mMode {ds : List Bool} {s t : State} (h : runEdges ds s = .next t) : t.mMode = s.mMode := by
  rw [runEdges_frame h]

/-- A failed attempt, retried or not, leaves the mode of the macro engine (44 R145). -/
theorem attemptFailed_mMode (s : State) : (attemptFailed s).mMode = s.mMode := by
  obtain ⟨-, heq⟩ | ⟨-, heq⟩ := attemptFailed_cases s <;> rw [heq]

/-- An abandoned transmission leaves the mode of the macro engine (44 R145). -/
theorem abandonTransmit_mMode (s : State) : (abandonTransmit s).mMode = s.mMode := by
  unfold abandonTransmit
  split <;> rfl

/-- ACK_POLL leaves the mode of the macro engine (44 R145). -/
theorem execAckPoll_mMode {s t : State} (h : execAckPoll s = .next t) : t.mMode = s.mMode := by
  obtain ⟨-, h⟩ := guarded_next.mp h
  cases hack : s.xAckst <;> rw [hack] at h <;> cases h
  case nacked => exact attemptFailed_mMode _
  case waiting | acked => rfl

/-- A pass of the wait for 0xAA leaves the mode of the macro engine (44 R145). -/
theorem batPollOnce_mMode (s : State) : (batPollOnce s).mMode = s.mMode := by
  unfold batPollOnce
  split
  next => rw [goto_mMode, rbPop_frame]
  next => rw [rbPop_frame]

/-- The operations of the macro engine that move its mode (44 R146 to R151). -/
def isMacroOp : Instr → Bool
  | .recHotkey => true
  | .playHotkey => true
  | .otherPress => true
  | .report _ _ => true
  | .service => true
  | _ => false

/-- Outside the macro engine only a reset moves its mode (44 R145, 70 R188). -/
theorem exec_mMode {i : Instr} {s t : State} (hmacro : isMacroOp i = false) (hreset : isReset i = false)
    (h : exec i s = .next t) : t.mMode = s.mMode := by
  cases i with
  | recHotkey | playHotkey | otherPress | report | service => cases hmacro
  | reset | batTimeout => cases hreset
  | edge => rw [edgeOp_frame h]
  | frameRx | respAck | respZero => exact runEdges_mMode h
  | respBatOk =>
    obtain ⟨u, hedges, hwait⟩ := andThen_next.mp h
    cases hwait
    have hu : u.mMode = s.mMode := runEdges_mMode hedges
    rw [batWait_frame]
    exact hu
  | frameTx =>
    obtain ⟨-, h⟩ := guarded_next.mp h
    have hsetup : (setupTransmit s).mMode = s.mMode := rfl
    exact (runEdges_mMode h).trans hsetup
  | recoveryDone | settleDone | idleTimeout | setupDone | send | cmdReset | cmdScanset2 | cmdSetLeds | cmdResend | cmdLeave =>
    obtain ⟨-, h⟩ := guarded_next.mp h
    cases h
    rfl
  | pop =>
    obtain ⟨-, h⟩ := guarded_next.mp h
    cases h
    rw [ret_mMode, rbPop_frame]
  | batPoll =>
    obtain ⟨-, h⟩ := guarded_next.mp h
    cases h
    exact batPollOnce_mMode s
  | ackTimeout =>
    obtain ⟨-, h⟩ := guarded_next.mp h
    cases h
    exact (attemptFailed_mMode _).trans (abandonTransmit_mMode s)
  | ackPoll => exact execAckPoll_mMode h
  | resendService | ledApply =>
    obtain ⟨-, h⟩ := guarded_next.mp h
    split at h <;> cases h <;> rfl
  | decode b => cases h; exact (decodeByte_quiet b s).mMode
  | tick | hostLed | cmdEnter | modsClear | parity => cases h; rfl
  | reserved1A1B | reserved1C1F => cases h
  | _ => exact (exec_scanByte_quiet rfl h).mMode

/-- REC_HOTKEY moves the mode in every mode (44 R147). -/
theorem execRecHotkey_moves {s t : State} (h : execRecHotkey s = .next t) :
    (s.mMode = .stopped ∧ t.mMode = .recording) ∨ (s.mMode ≠ .stopped ∧ t.mMode = .stopped ∧ t.hDirty = true) := by
  unfold execRecHotkey at h
  cases hm : s.mMode <;> rw [hm] at h <;> cases h
  case stopped => exact .inl ⟨rfl, rfl⟩
  case recording | replaying => exact .inr ⟨nofun, rfl, rfl⟩

/-- PLAY_HOTKEY moves the mode unless Recording (44 R148). -/
theorem execPlayHotkey_moves {s t : State} (h : execPlayHotkey s = .next t) :
    (s.mMode = .stopped ∧ t.mMode = .replaying) ∨ (s.mMode = .replaying ∧ t.mMode = .stopped ∧ t.hDirty = true) ∨
    t.mMode = s.mMode := by
  unfold execPlayHotkey at h
  cases hm : s.mMode <;> rw [hm] at h <;> cases h
  case stopped => exact .inl ⟨rfl, rfl⟩
  case replaying => exact .inr (.inl ⟨rfl, rfl, rfl⟩)
  case recording => exact .inr (.inr hm)

/-- OTHER_PRESS aborts a replay (44 R149). -/
theorem execOtherPress_moves {s t : State} (h : execOtherPress s = .next t) :
    (s.mMode = .replaying ∧ t.mMode = .stopped ∧ t.hDirty = true) ∨ t.mMode = s.mMode := by
  cases h
  split
  next hmode => exact .inl ⟨hmode, rfl, rfl⟩
  next => exact .inr rfl

/-- REPORT stops the recording that its step fills (44 R150, R157). -/
theorem execReport_moves {len : BitVec 4} {r : Bytes8} {s t : State} (h : execReport len r s = .next t) :
    (s.mMode = .recording ∧ t.mMode = .stopped ∧ t.hDirty = true ∧ t.mFill = 40#6) ∨ t.mMode = s.mMode := by
  unfold execReport at h
  split at h
  next => cases h
  next =>
    split at h
    next => cases h; exact .inr rfl
    next hmode =>
      split at h
      next => cases h; exact .inr rfl
      next =>
        split at h
        next hroom =>
          cases h
          rw [fullCheck_stepAppend _ hroom]
          dsimp only
          split
          next hlast => exact .inl ⟨not_not.mp hmode, rfl, rfl, by rw [hlast]; rfl⟩
          next => exact .inr rfl
        next => cases h

/-- SERVICE ends a replay that has no step left (44 R151, R153). -/
theorem execService_moves {s t : State} (h : execService s = .next t) :
    (s.mMode = .replaying ∧ s.mFill.toNat ≤ s.mCursor.toNat ∧ t.mMode = .stopped ∧ t.hDirty = true) ∨
    t.mMode = s.mMode := by
  obtain ⟨-, h⟩ := guarded_next.mp h
  obtain ⟨u, hplay, hleds⟩ := andThen_next.mp h
  rw [serviceLeds_frame hleds]
  obtain ⟨rfl, -⟩ | ⟨-, hcur, m, -, hnext⟩ | ⟨hmode, hcur, hend⟩ := servicePlay_cases hplay
  · exact .inr rfl
  · rw [(scheduleNext_sent hcur hnext).frame]
    exact .inr rfl
  · obtain ⟨hstop, hdirty⟩ := replayEnd_stops hend
    exact .inl ⟨hmode, hcur, hstop, hdirty⟩

/-- Settles O41: the operations that move the mode are those of the macro engine, and each moves it in its own cases. -/
theorem noOtherMacroTransition : Obligations.NoOtherMacroTransition := by
  intro i s t h hreset hmoved
  cases i with
  | recHotkey =>
    obtain ⟨hs, ht⟩ | ⟨hs, ht, hdirty⟩ := execRecHotkey_moves h
    · exact .inl ⟨hs, rfl, ht⟩
    · cases hm : s.mMode with
      | stopped => exact absurd hm hs
      | recording => exact .inr (.inr (.inl ⟨rfl, ht, hdirty, .inl rfl⟩))
      | replaying => exact .inr (.inr (.inr ⟨rfl, ht, hdirty, .inr (.inr (.inl rfl))⟩))
  | playHotkey =>
    obtain ⟨hs, ht⟩ | ⟨hs, ht, hdirty⟩ | hsame := execPlayHotkey_moves h
    · exact .inr (.inl ⟨hs, rfl, ht⟩)
    · exact .inr (.inr (.inr ⟨hs, ht, hdirty, .inl rfl⟩))
    · exact absurd hsame hmoved
  | otherPress =>
    obtain ⟨hs, ht, hdirty⟩ | hsame := execOtherPress_moves h
    · exact .inr (.inr (.inr ⟨hs, ht, hdirty, .inr (.inl rfl)⟩))
    · exact absurd hsame hmoved
  | report len r =>
    obtain ⟨hs, ht, hdirty, hfull⟩ | hsame := execReport_moves h
    · exact .inr (.inr (.inl ⟨hs, ht, hdirty, .inr ⟨len, r, rfl, hfull⟩⟩))
    · exact absurd hsame hmoved
  | service =>
    obtain ⟨hs, hcur, ht, hdirty⟩ | hsame := execService_moves h
    · exact .inr (.inr (.inr ⟨hs, ht, hdirty, .inr (.inr (.inr ⟨rfl, hcur⟩))⟩))
    · exact absurd hsame hmoved
  | _ => exact absurd (exec_mMode rfl hreset h) hmoved

/-! ## A whole replay -/

/-- A run that ends in a replay was in it from the start: of its operations none starts one (44 R145). -/
theorem runScript_replaying {script : List Instr} (hops : ∀ i ∈ script, i = .service ∨ i = .tick) {s t : State}
    (h : runScript script s = .next t) (ht : t.mMode = .replaying) : s.mMode = .replaying := by
  induction script generalizing s with
  | nil => cases h; exact ht
  | cons i is ih =>
    obtain ⟨u, hi, his⟩ := andThen_next.mp h
    have hu : u.mMode = .replaying := ih (fun j hj => hops j (List.mem_cons_of_mem i hj)) his
    obtain rfl | rfl := hops i List.mem_cons_self
    · obtain ⟨-, -, hstop, -⟩ | hsame := execService_moves hi
      · cases hu.symm.trans hstop
      · exact hsame.symm.trans hu
    · exact (exec_mMode rfl rfl hi).symm.trans hu

/-- The part of a list between two indices begins with the entry at the first. -/
theorem drop_take_eq_cons {α : Type} {l : List α} {a : α} {j k : Nat} (hjk : j < k) (hj : l[j]? = some a) :
    (l.take k).drop j = a :: (l.take k).drop (j + 1) := by
  obtain ⟨hlt, rfl⟩ := List.getElem?_eq_some_iff.mp hj
  rw [List.drop_eq_getElem_cons (by simp; omega), List.getElem_take]

/-- From s to t a replay has gone on: the cursor has moved over steps of the recording, whose reports were emitted in order and
whose successors' delays were added to the schedule (44 R152, R156). -/
structure ReplayedTo (s t : State) : Prop where
  cursor_le : s.mCursor.toNat ≤ t.mCursor.toNat
  cursor_fill : t.mCursor.toNat ≤ s.mFill.toNat
  fill : t.mFill = s.mFill
  steps : t.steps = s.steps
  reports : reportsOf t.history = reportsOf s.history ++
    ((s.steps.toList.take t.mCursor.toNat).drop s.mCursor.toNat).map (fun m => firstBytes m.len m.data)
  schedule : t.mNext = s.mNext +
    ((((s.steps.toList.take s.mFill.toNat).take (t.mCursor.toNat + 1)).drop (s.mCursor.toNat + 1)).map MacroStep.delay).sum

/-- No operation at all. -/
theorem ReplayedTo.refl {s : State} (hcur : s.mCursor.toNat ≤ s.mFill.toNat) : ReplayedTo s s where
  cursor_le := le_rfl
  cursor_fill := hcur
  fill := rfl
  steps := rfl
  reports := by simp
  schedule := by simp

/-- Before the rest of a replay, an operation that touches only the clock, the chase and the returned value. -/
theorem ReplayedTo.after_waiting {s u t : State}
    (hwait : u = { s with tMs := u.tMs, mLedph := u.mLedph, mLedt := u.mLedt, result := u.result })
    (h : ReplayedTo u t) : ReplayedTo s t := by
  rw [hwait] at h
  obtain ⟨hle, hcur, hfill, hsteps, hreports, hschedule⟩ := h
  exact ⟨hle, hcur, hfill, hsteps, hreports, hschedule⟩

/-- Before the rest of a replay, a step that is sent. -/
theorem ReplayedTo.after_sent {m : MacroStep} {s u t : State} (hcur : s.mCursor.toNat < s.mFill.toNat)
    (hm : stepAt s s.mCursor.toNat = some m) (hsent : Sent m s u) (h : ReplayedTo u t) : ReplayedTo s t := by
  obtain ⟨hframe, hlast, hmore⟩ := hsent
  obtain ⟨hle, htcur, hfill, hsteps, hreports, hschedule⟩ := h
  generalize u.mNext = next at hframe hlast hmore hschedule
  subst hframe
  simp only [nextCursor_toNat hcur] at hle htcur hfill hsteps hreports hschedule
  refine ⟨by omega, htcur, hfill, hsteps, ?reports, ?schedule⟩
  case reports =>
    have hhead : s.steps.toList[s.mCursor.toNat]? = some m := by simpa [stepAt] using hm
    rw [hreports, reportsOf_append_usb, drop_take_eq_cons hle hhead, List.map_cons, List.append_assoc]
    rfl
  case schedule =>
    rw [hschedule]
    obtain hend | hlt := Nat.eq_or_lt_of_le hcur
    · have hpast {j : Nat} (hj : s.mFill.toNat ≤ j) :
          ((s.steps.toList.take s.mFill.toNat).take (t.mCursor.toNat + 1)).drop j = [] :=
        List.drop_eq_nil_of_le (by simp; omega)
      rw [hlast hend, hpast hend.ge, hpast (by omega)]
    · obtain ⟨n, hn, hnext⟩ := hmore hlt
      have hhead : (s.steps.toList.take s.mFill.toNat)[s.mCursor.toNat + 1]? = some n := by
        rw [List.getElem?_take_of_lt hlt]
        simpa [stepAt] using hn
      rw [hnext, drop_take_eq_cons (by omega) hhead, List.map_cons, List.sum_cons, add_assoc]

/-- SERVICE while the replay goes on (44 R151). -/
theorem ReplayedTo.after_service {s u t : State} (hs : s.mMode = .replaying) (hu : u.mMode = .replaying)
    (hservice : execService s = .next u) (h : ReplayedTo u t) : ReplayedTo s t := by
  obtain ⟨-, hservice⟩ := guarded_next.mp hservice
  obtain ⟨v, hplay, hleds⟩ := andThen_next.mp hservice
  have hframe := serviceLeds_frame hleds
  have hv : ReplayedTo v t := h.after_waiting (by rw [hframe])
  obtain ⟨rfl, -⟩ | ⟨-, hcur, m, hm, hnext⟩ | ⟨-, -, hend⟩ := servicePlay_cases hplay
  · exact hv
  · exact hv.after_sent hcur hm (scheduleNext_sent hcur hnext)
  · obtain ⟨hstop, -⟩ := replayEnd_stops hend
    rw [hframe] at hu
    cases hu.symm.trans hstop

/-- Settles O46, by induction on the script: each operation before the rest of the replay waits or sends one step. -/
theorem replayEmitsTheRecordingInOrder : Obligations.ReplayEmitsTheRecordingInOrder := by
  intro script s t hops hinv hs h ht
  suffices hreplayed : ReplayedTo s t by
    obtain ⟨hle, hcur, hfill, hsteps, hreports, hschedule⟩ := hreplayed
    exact ⟨hle, hcur, hfill, hsteps, hreports, hschedule⟩
  induction script generalizing s with
  | nil =>
    cases h
    obtain ⟨-, hcur, -⟩ := hinv.macros
    exact ReplayedTo.refl hcur
  | cons i is ih =>
    obtain ⟨u, hi, his⟩ := andThen_next.mp h
    have hrest : ∀ j ∈ is, j = .service ∨ j = .tick := fun j hj => hops j (List.mem_cons_of_mem i hj)
    have hu : u.mMode = .replaying := runScript_replaying hrest his ht
    have hreplayed : ReplayedTo u t := ih u hrest ((exec_keeps hi).inv hinv) hu his
    obtain rfl | rfl := hops i List.mem_cons_self
    · exact hreplayed.after_service hs hu hi
    · cases hi
      exact hreplayed.after_waiting rfl

end Sys2Proof.Machine

/-! The timebase and the host's LED byte (45_timebase_host): TICK and HOST_LED as their only writers, and LED_APPLY with the
remapping of the three LED bits. -/

namespace Sys2Proof.Machine

/-! ## Operations that leave the timebase and the host's LED byte -/

/-- t has the T_MS and the H_LED of s. -/
structure TimebaseKept (s t : State) : Prop where
  tMs : t.tMs = s.tMs
  hLed : t.hLed = s.hLed

/-- Operations in sequence. -/
theorem TimebaseKept.trans {s t u : State} (hst : TimebaseKept s t) (htu : TimebaseKept t u) : TimebaseKept s u :=
  ⟨htu.tMs.trans hst.tMs, htu.hLed.trans hst.hLed⟩

/-- A run of edges leaves T_MS and H_LED (41 R93). -/
theorem runEdges_timebaseKept {ds : List Bool} {s t : State} (h : runEdges ds s = .next t) : TimebaseKept s t := by
  rw [runEdges_frame h]
  exact ⟨rfl, rfl⟩

/-- A pop leaves T_MS and H_LED (42 R105). -/
theorem rbPop_timebaseKept (s : State) : TimebaseKept s (rbPop s) := by
  rw [rbPop_frame]
  exact ⟨rfl, rfl⟩

/-- The polls of the wait for 0xAA leave T_MS and H_LED (42 R120). -/
theorem batWait_timebaseKept (n : Nat) (s : State) : TimebaseKept s (batWait n s) := by
  rw [batWait_frame]
  exact ⟨rfl, rfl⟩

/-- A pass of the wait for 0xAA leaves T_MS and H_LED (42 R121). -/
theorem batPollOnce_timebaseKept (s : State) : TimebaseKept s (batPollOnce s) := by
  have hpop : TimebaseKept s (rbPop s) := rbPop_timebaseKept s
  unfold batPollOnce
  split
  next => exact hpop.trans ⟨goto_tMs _ _, goto_hLed _ _⟩
  next => exact hpop

/-- A failed attempt, retried or not, leaves T_MS and H_LED (42 R114). -/
theorem attemptFailed_timebaseKept (s : State) : TimebaseKept s (attemptFailed s) := by
  obtain ⟨-, heq⟩ | ⟨-, heq⟩ := attemptFailed_cases s <;> rw [heq] <;> exact ⟨rfl, rfl⟩

/-- An abandoned transmission leaves T_MS and H_LED (42 R113). -/
theorem abandonTransmit_timebaseKept (s : State) : TimebaseKept s (abandonTransmit s) := by
  unfold abandonTransmit
  split <;> exact ⟨rfl, rfl⟩

/-- ACK_POLL leaves T_MS and H_LED (42 R112). -/
theorem execAckPoll_timebaseKept {s t : State} (h : execAckPoll s = .next t) : TimebaseKept s t := by
  obtain ⟨-, h⟩ := guarded_next.mp h
  cases hack : s.xAckst <;> rw [hack] at h <;> cases h
  case nacked =>
    have hcleared : TimebaseKept s { s with xAckst := .none } := ⟨rfl, rfl⟩
    exact hcleared.trans (attemptFailed_timebaseKept _)
  case waiting | acked => exact ⟨rfl, rfl⟩

/-- ACK_TIMEOUT leaves T_MS and H_LED (42 R113). -/
theorem execAckTimeout_timebaseKept {s t : State} (h : execAckTimeout s = .next t) : TimebaseKept s t := by
  obtain ⟨-, h⟩ := guarded_next.mp h
  cases h
  have hraised : TimebaseKept (abandonTransmit s)
      (raise (.ackTimeout s.sByte s.sAttempt) { abandonTransmit s with xAckst := .none }) := ⟨rfl, rfl⟩
  exact ((abandonTransmit_timebaseKept s).trans hraised).trans (attemptFailed_timebaseKept _)

/-- A macro operation leaves T_MS and H_LED (44 R146 to R155). -/
theorem MacroOnly.timebaseKept {s t : State} (h : MacroOnly s t) : TimebaseKept s t := by
  rw [MacroOnly] at h
  rw [h]
  exact ⟨rfl, rfl⟩

/-- A row of the byte map leaves T_MS and H_LED (43 R125 to R138). -/
theorem exec_scanByte_timebaseKept {i : Instr} {s t : State} (hfmt : formatOf i = .scanByte) (h : exec i s = .next t) :
    TimebaseKept s t := by
  cases i with
  | scanZero | scanBreakF0 | scanExtE0 | scanPauseE1 | scanExt2Prefix | scanExt2Byte14 | scanExt2Byte77 | scanExt2Other
  | scanExtDiscard | scanExtDiscard59 | scanExtMod | scanExtPlain | scanKeyMod | scanKeyPlain | scanCommand =>
    obtain ⟨-, rfl⟩ := scanRowOp_next.mp h
    exact ⟨rfl, rfl⟩
  | _ => cases hfmt

/-- DECODE, being the row its byte selects, leaves T_MS and H_LED (43 R124). -/
theorem decodeByte_timebaseKept (b : Byte) (s : State) : TimebaseKept s (decodeByte b s) := by
  obtain ⟨-, -, hfmt, -⟩ := scanRow_spells s.kMode s.kP2 b Bytes8.zero
  exact exec_scanByte_timebaseKept hfmt (exec_scanRow b s)

/-! ## Every instruction -/

/-- TICK adds one millisecond modulo 2^32 (45 R158). -/
theorem exec_tick (s : State) : exec .tick s = .next { s with tMs := BitVec.ofNat 32 (s.tMs.toNat + 1) } := by
  have hwrap : BitVec.ofNat 32 (s.tMs.toNat + 1) = s.tMs + 1 := by
    rw [BitVec.ofNat_add, BitVec.ofNat_toNat, BitVec.setWidth_eq]
    rfl
  rw [hwrap]
  rfl

/-- HOST_LED stores the host's byte and requests its application (45 R160). -/
theorem exec_hostLed (b : Byte) (s : State) : exec (.hostLed b) s = .next { s with hLed := b, hDirty := true } := rfl

/-- Apart from TICK, HOST_LED and a reset, every instruction leaves T_MS and H_LED (10 R50, R51). -/
theorem exec_timebaseKept {i : Instr} {s t : State} (htick : i ≠ .tick) (hled : ∀ b, i ≠ .hostLed b)
    (hreset : isReset i = false) (h : exec i s = .next t) : TimebaseKept s t := by
  cases i with
  | tick => exact absurd rfl htick
  | hostLed b => exact absurd rfl (hled b)
  | reset | batTimeout => cases hreset
  | edge =>
    rw [edgeOp_frame h]
    exact ⟨rfl, rfl⟩
  | frameRx | respAck | respZero => exact runEdges_timebaseKept h
  | respBatOk =>
    obtain ⟨u, hedges, hwait⟩ := andThen_next.mp h
    cases hwait
    exact (runEdges_timebaseKept hedges).trans (batWait_timebaseKept _ u)
  | frameTx =>
    obtain ⟨-, h⟩ := guarded_next.mp h
    have hsetup : TimebaseKept s (setupTransmit s) := ⟨rfl, rfl⟩
    exact hsetup.trans (runEdges_timebaseKept h)
  | recoveryDone | settleDone | idleTimeout | setupDone | send | cmdReset | cmdScanset2 | cmdSetLeds | cmdResend | cmdLeave =>
    obtain ⟨-, h⟩ := guarded_next.mp h
    cases h
    exact ⟨rfl, rfl⟩
  | pop =>
    obtain ⟨-, h⟩ := guarded_next.mp h
    cases h
    exact (rbPop_timebaseKept s).trans ⟨ret_tMs _ _, ret_hLed _ _⟩
  | batPoll =>
    obtain ⟨-, h⟩ := guarded_next.mp h
    cases h
    exact batPollOnce_timebaseKept s
  | ackTimeout => exact execAckTimeout_timebaseKept h
  | ackPoll => exact execAckPoll_timebaseKept h
  | resendService | ledApply =>
    obtain ⟨-, h⟩ := guarded_next.mp h
    split at h <;> cases h <;> exact ⟨rfl, rfl⟩
  | recHotkey => exact (execRecHotkey_macroOnly h).timebaseKept
  | playHotkey => exact (execPlayHotkey_macroOnly h).timebaseKept
  | otherPress => exact (execOtherPress_macroOnly h).timebaseKept
  | report => exact (execReport_macroOnly h).timebaseKept
  | service => exact (execService_macroOnly h).timebaseKept
  | decode b => cases h; exact decodeByte_timebaseKept b s
  | cmdEnter | modsClear | parity => cases h; exact ⟨rfl, rfl⟩
  | reserved1A1B | reserved1C1F => cases h
  | _ => exact exec_scanByte_timebaseKept rfl h

/-- TICK does no other work than its own: it leaves H_LED (45 R158). -/
theorem exec_tick_hLed {s t : State} (h : exec .tick s = .next t) : t.hLed = s.hLed := by
  cases h
  rfl

/-- HOST_LED leaves T_MS (45 R160). -/
theorem exec_hostLed_tMs {b : Byte} {s t : State} (h : exec (.hostLed b) s = .next t) : t.tMs = s.tMs := by
  cases h
  rfl

/-- Settles O47: each of the two writers leaves the other's element, and no other instruction writes either. -/
theorem onlyTickAdvancesTheClock : Obligations.OnlyTickAdvancesTheClock := by
  refine ⟨fun b s => ⟨exec_tick s, exec_hostLed b s⟩, fun i s t h hreset => ⟨fun htick => ?clock, fun hled => ?leds⟩⟩
  case clock =>
    by_cases hled : ∃ b, i = .hostLed b
    · obtain ⟨b, rfl⟩ := hled
      exact exec_hostLed_tMs h
    · exact (exec_timebaseKept htick (not_exists.mp hled) hreset h).tMs
  case leds =>
    by_cases htick : i = .tick
    · subst htick
      exact exec_tick_hLed h
    · exact (exec_timebaseKept htick hled hreset h).hLed

/-! ## LED_APPLY -/

/-- The bits of the remapped LED byte: bits 2, 0 and 1 of the host's, then zeros (30 R85). -/
theorem ledRemap_getLsbD (u : Byte) (k : Nat) : (ledRemap u).getLsbD k =
    if k = 0 then u.getLsbD 2 else if k = 1 then u.getLsbD 0 else if k = 2 then u.getLsbD 1 else false := by
  rw [ledRemap, BitVec.getLsbD_setWidth, BitVec.getLsbD_append, BitVec.getLsbD_append]
  match k with
  | 0 | 1 | 2 => simp
  | n + 3 => simp

/-- A request with no macro active is handed out once (45 R161). -/
theorem exec_ledApply_requested {s : State} (hidle : s.sState = .idle) (hdirty : s.hDirty = true) (hmode : s.mMode = .stopped) :
    exec .ledApply s = .next { s with hDirty := false, result := .byte (ledRemap s.hLed) } :=
  guarded_next.mpr ⟨beq_iff_eq.mpr hidle, if_pos ⟨hdirty, hmode⟩⟩

/-- Without a request, or with a macro active, LED_APPLY hands out nothing and keeps the request (45 R161, R162). -/
theorem exec_ledApply_none {s : State} (hidle : s.sState = .idle) (h : ¬(s.hDirty = true ∧ s.mMode = .stopped)) :
    exec .ledApply s = .next { s with result := .none } :=
  guarded_next.mpr ⟨beq_iff_eq.mpr hidle, if_neg h⟩

/-- Settles O48: the byte handed out is the remapped H_LED, whose bits are known. -/
theorem ledApplyRemapsOnce : Obligations.LedApplyRemapsOnce := by
  intro s hidle
  refine ⟨fun hdirty hmode => ?requested, fun hnone => exec_ledApply_none hidle fun ⟨hdirty, hmode⟩ => ?notRequested⟩
  case requested => exact ⟨_, exec_ledApply_requested hidle hdirty hmode, ledRemap_getLsbD s.hLed⟩
  case notRequested =>
    obtain hclean | hactive := hnone
    · cases hclean.symm.trans hdirty
    · exact hactive hmode

end Sys2Proof.Machine

/-! The main procedure (47_environment R163): the turn that runs a line, the label that ends when its sends have returned, and the
main loop line by line. -/

namespace Sys2Proof.Machine

/-! ## A turn at a line -/

/-- The main context's operation, run by its own turn (47 R163). -/
theorem step_of_op {s t : State} {i : Instr} (hin : s.input = []) (hnext : mainNext s = .op i) (h : exec i s = .next t) :
    step s = .next (settle (mainAfter s t)) := by
  rw [step_of_no_input hin, mainTurn_of_op hnext, runOp_of_mainNext hnext, h, andThen_of_next]

/-- With no send in progress or pending, the main context is at its line (42 R106). -/
theorem mainNext_of_free {s : State} (hfree : MainFree s) : mainNext s = lineAt s := by
  obtain ⟨-, hidle, hsends⟩ := hfree
  simp only [mainNext, hidle, hsends]

/-- With no send in progress or pending, an operation is followed by the move of its line (42 R106). -/
theorem mainAfter_of_free {s : State} (hfree : MainFree s) (t : State) : mainAfter s t = afterLine s t := by
  obtain ⟨-, hidle, hsends⟩ := hfree
  simp only [mainAfter, hidle, hsends]

/-- A line that is an operation (47 R163). -/
theorem step_line {s t : State} {i : Instr} (hfree : MainFree s) (hline : lineAt s = .op i) (h : exec i s = .next t) :
    step s = .next (settle (afterLine s t)) := by
  have ⟨hin, _, _⟩ := hfree
  rw [step_of_op hin ((mainNext_of_free hfree).trans hline) h, mainAfter_of_free hfree]

/-- The first line of a label, if it is an operation (47 R163). -/
theorem step_firstLine {s t : State} {i : Instr} {l : MainLabel} (hfree : MainFree s) (hat : s.mainAt = .start)
    (hpc : s.mainPc = l) (hline : firstLine l = .op i) (h : exec i s = .next t) :
    step s = .next (settle (afterFirstLine l t)) := by
  rw [step_line hfree (by simpa only [lineAt, hat, hpc] using hline) h]
  simp only [afterLine, hat, hpc]

/-- A line that is the environment's (47 R163). -/
theorem step_envLine {s : State} (hfree : MainFree s) (hline : lineAt s = .env) :
    step s = .next (settle (envAct Config.env s)) := by
  have ⟨hin, _, _⟩ := hfree
  rw [step_of_no_input hin, mainTurn_of_env ((mainNext_of_free hfree).trans hline)]

/-! ## The end of a label -/

/-- Inside a label's lines MAIN_PC stays (10 R53). -/
theorem settle_of_not_done {s : State} (h : s.mainAt ≠ .done) : settle s = s :=
  if_neg fun ⟨hdone, _⟩ => h hdone

/-- With sends to come MAIN_PC stays (10 R53). -/
theorem settle_of_pending {s : State} (h : s.sends ≠ []) : settle s = s :=
  if_neg fun ⟨_, _, hsends⟩ => h hsends

/-- A move inside a label's lines (10 R53). -/
theorem settle_goAt {m : MainPoint} (h : m ≠ .done) (s : State) : settle (goAt m s) = goAt m s := settle_of_not_done h

/-- A label whose lines are done ends when no send is left, and else waits for the next one (10 R53). -/
theorem settle_of_done {s : State} (hdone : s.mainAt = .done) (hidle : s.sState = .idle) :
    settle s = if s.sends = [] then { s with mainPc := nextLabel s.mainPc, mainAt := .start } else s := by
  by_cases hsends : s.sends = []
  · rw [if_pos hsends, settle, if_pos ⟨hdone, hidle, hsends⟩]
    rfl
  · rw [if_neg hsends, settle_of_pending hsends]

/-- A label that ends with no send to make (10 R53). -/
theorem settle_goAt_done {s : State} (hidle : s.sState = .idle) (hsends : s.sends = []) :
    settle (goAt .done s) = { s with mainPc := nextLabel s.mainPc, mainAt := .start } :=
  (settle_of_done (goAt_mainAt .done s) hidle).trans (if_pos hsends)

/-- A label of one line, which ends at once (47 R163). -/
theorem settle_singleLine {s : State} {l : MainLabel} (hpc : s.mainPc = l) (hat : s.mainAt = .start) (hidle : s.sState = .idle)
    (hsends : s.sends = []) : settle (goAt .done s) = { s with mainPc := nextLabel l } := by
  rw [settle_goAt_done hidle hsends, ← hat, hpc]

/-! ## The lines of the loop -/

/-- L_RESEND sends FE if it was requested (47 R163). -/
theorem step_lResend {s : State} (hfree : MainFree s) (hat : s.mainAt = .start) (hpc : s.mainPc = .lResend) :
    step s = .next (
      if s.xResend then { s with xResend := false, result := .byte 0xFE, mainAt := .done, sends := [0xFE] }
      else { s with result := .none, mainPc := .lPop }) := by
  have ⟨_, hidle, hsends⟩ := hfree
  have hexec := resendServiceHandsOutTheRequest s hidle
  by_cases hreq : s.xResend = true
  · rw [if_pos hreq] at hexec ⊢
    rw [step_firstLine hfree hat hpc rfl hexec]
    exact congrArg Host.Outcome.next (settle_of_pending nofun)
  · rw [if_neg hreq] at hexec ⊢
    rw [step_firstLine hfree hat hpc rfl hexec]
    exact congrArg Host.Outcome.next (settle_singleLine (s := { s with result := .none }) hpc hat hidle hsends)

/-- L_POP with an empty buffer (47 R163). -/
theorem step_lPop_empty {s : State} (hfree : MainFree s) (hat : s.mainAt = .start) (hpc : s.mainPc = .lPop)
    (hempty : rbAt s s.rbRd = 0#8) : step s = .next { s with result := .byte 0, mainPc := .lService } := by
  have ⟨_, hidle, hsends⟩ := hfree
  have hexec := exec_pop hidle
  rw [rbPop_eq, if_pos hempty, hempty] at hexec
  rw [step_firstLine hfree hat hpc rfl hexec]
  exact congrArg Host.Outcome.next (settle_singleLine (s := { s with result := .byte 0 }) hpc hat hidle hsends)

/-- L_POP takes the oldest byte to be decoded (47 R163). -/
theorem step_lPop_byte {s : State} (hfree : MainFree s) (hat : s.mainAt = .start) (hpc : s.mainPc = .lPop)
    (hbyte : rbAt s s.rbRd ≠ 0#8) : step s = .next { s with
      rb := Memory.write s.rb s.rbRd.toNat 0, rbRd := s.rbRd + 1, result := .byte (rbAt s s.rbRd),
      mainAt := .decode (rbAt s s.rbRd) } := by
  have ⟨_, hidle, _⟩ := hfree
  rw [step_firstLine hfree hat hpc rfl (exec_pop hidle), rbPop_eq, if_neg hbyte, afterFirstLine, ret_result, afterPop,
    if_neg hbyte]
  exact congrArg Host.Outcome.next (settle_goAt (by nofun) _)

/-- A line that returned no LED byte ends its label (47 R163). -/
theorem settle_callSetLeds_none {t : State} {l : MainLabel} (hpc : t.mainPc = l) (hat : t.mainAt = .start)
    (hidle : t.sState = .idle) (hsends : t.sends = []) (hresult : t.result = .none) :
    settle (callSetLeds t.result t) = { t with mainPc := nextLabel l } :=
  (congrArg (fun r => settle (callSetLeds r t)) hresult).trans (settle_singleLine hpc hat hidle hsends)

/-- A line that returned an LED byte is followed by SET_LEDS (47 R163). -/
theorem settle_callSetLeds_byte {t : State} {led : Byte} (hresult : t.result = .byte led) :
    settle (callSetLeds t.result t) = { t with mainAt := .done, sends := [0xED, led] } :=
  (congrArg (fun r => settle (callSetLeds r t)) hresult).trans
    (settle_of_pending (s := { t with mainAt := .done, sends := [0xED, led] }) nofun)

/-- A macro operation leaves the main context where it is. -/
theorem MacroOnly.main {s t : State} (h : MacroOnly s t) :
    t.mainPc = s.mainPc ∧ t.mainAt = s.mainAt ∧ t.sState = s.sState ∧ t.sends = s.sends ∧ t.eArmed = s.eArmed := by
  rw [MacroOnly] at h
  rw [h]
  exact ⟨rfl, rfl, rfl, rfl, rfl⟩

/-- L_SERVICE sets the LEDs if SERVICE returned a byte (47 R163). -/
theorem step_lService {s t : State} (hfree : MainFree s) (hat : s.mainAt = .start) (hpc : s.mainPc = .lService)
    (h : exec .service s = .next t) :
    (t.result = .none → step s = .next { t with mainPc := .lLed }) ∧
    ∀ led, t.result = .byte led → step s = .next { t with mainAt := .done, sends := [0xED, led] } := by
  have ⟨_, hidle, hsends⟩ := hfree
  obtain ⟨htpc, htat, htidle, htsends, -⟩ := (execService_macroOnly h).main
  rw [step_firstLine hfree hat hpc rfl h]
  exact ⟨fun hnone => congrArg _ (settle_callSetLeds_none (htpc.trans hpc) (htat.trans hat) (htidle.trans hidle)
      (htsends.trans hsends) hnone), fun led hled => congrArg _ (settle_callSetLeds_byte hled)⟩

/-- L_LED sets the LEDs if the host asked for it and no macro is active (47 R163). -/
theorem step_lLed_requested {s : State} (hfree : MainFree s) (hat : s.mainAt = .start) (hpc : s.mainPc = .lLed)
    (hdirty : s.hDirty = true) (hmode : s.mMode = .stopped) : step s = .next { s with
      hDirty := false, result := .byte (ledRemap s.hLed), mainAt := .done, sends := [0xED, ledRemap s.hLed] } := by
  have ⟨_, hidle, _⟩ := hfree
  rw [step_firstLine hfree hat hpc rfl (exec_ledApply_requested hidle hdirty hmode)]
  exact congrArg Host.Outcome.next (settle_of_pending nofun)

/-- L_LED has nothing to set without a request or while a macro is active (47 R163). -/
theorem step_lLed_none {s : State} (hfree : MainFree s) (hat : s.mainAt = .start) (hpc : s.mainPc = .lLed)
    (h : s.hDirty = false ∨ s.mMode ≠ .stopped) : step s = .next { s with result := .none, mainPc := .lSafety } := by
  have ⟨_, hidle, hsends⟩ := hfree
  obtain ⟨-, hnone⟩ := ledApplyRemapsOnce s hidle
  rw [step_firstLine hfree hat hpc rfl (hnone h)]
  exact congrArg Host.Outcome.next (settle_singleLine (s := { s with result := .none }) hpc hat hidle hsends)

/-- L_SAFETY is the environment's check (47 R163, R170). -/
theorem step_lSafety {s : State} (hfree : MainFree s) (hat : s.mainAt = .start) (hpc : s.mainPc = .lSafety) :
    step s = .next (settle (safetyCheck s)) := by
  rw [step_envLine hfree (by simp only [lineAt, hat, hpc, firstLine])]
  simp only [envAct, hat]

/-- L_SAFETY with the deadline disarmed does nothing (47 R163, R170). -/
theorem step_lSafety_disarmed {s : State} (hfree : MainFree s) (hat : s.mainAt = .start) (hpc : s.mainPc = .lSafety)
    (hdisarmed : s.eArmed = false) : step s = .next { s with mainPc := .lResend } := by
  have ⟨_, hidle, hsends⟩ := hfree
  rw [step_lSafety hfree hat hpc, safetyCheck, if_pos hdisarmed]
  exact congrArg Host.Outcome.next (settle_singleLine hpc hat hidle hsends)

/-! ## The points inside a label -/

/-- DECODE always returns a triple (43 R123). -/
theorem decodeByte_result (b : Byte) (s : State) : ∃ mods c ev, (decodeByte b s).result = .decoded mods c ev := by
  cases hmode : s.kMode with
  | command => exact ⟨_, _, _, by rw [decodeByte, if_pos hmode]; rfl⟩
  | key =>
    rw [decodeByte_key hmode]
    split_ifs <;> exact ⟨_, _, _, rfl⟩
  | extendedKey =>
    rw [decodeByte_extendedKey hmode]
    split_ifs <;> exact ⟨_, _, _, rfl⟩
  | extendedKey2 =>
    rw [decodeByte_extendedKey2 hmode]
    split_ifs <;> exact ⟨_, _, _, rfl⟩

/-- The popped byte is decoded, and its triple is next to be handled (47 R163). -/
theorem step_decode {s : State} (hfree : MainFree s) {b : Byte} (hat : s.mainAt = .decode b) :
    ∃ t mods c ev, exec (.decode b) s = .next t ∧ t.result = .decoded mods c ev ∧
      step s = .next { t with mainAt := .handle mods c ev } := by
  obtain ⟨mods, c, ev, hresult⟩ := decodeByte_result b s
  have hafter : afterLine s (decodeByte b s) = goAt (.handle mods c ev) (decodeByte b s) := by
    simp only [afterLine, hat, hresult, afterDecode]
  refine ⟨decodeByte b s, mods, c, ev, rfl, hresult, ?_⟩
  rw [step_line hfree (i := .decode b) (by simp only [lineAt, hat]) rfl, hafter]
  exact congrArg Host.Outcome.next (settle_goAt (by nofun) _)

/-- A hotkey's operation is issued, and the handling goes on, unless it was the reset (47 R166). -/
theorem step_issue {s : State} (hfree : MainFree s) {h : HotOp} {mods : Byte} {changed : Bool}
    (hat : s.mainAt = .issue h mods changed) : ∃ t, exec (hotInstr h) s = .next t ∧
      step s = .next (if h = .reset then t else { t with mainAt := .emit mods changed }) := by
  obtain ⟨t, ht⟩ := exec_hotInstr_completes h s
  refine ⟨t, ht, ?_⟩
  rw [step_line hfree (by simp only [lineAt, hat]) ht]
  simp only [afterLine, hat]
  split
  next hreset =>
    subst hreset
    cases ht
    exact congrArg Host.Outcome.next (settle_of_not_done nofun)
  next => exact congrArg Host.Outcome.next (settle_goAt (by nofun) t)

/-- A handling that ends with no send to make ends its label; at L_SAFETY it disarms the deadline (47 R165, R170). -/
theorem settle_handled {s : State} (hidle : s.sState = .idle) (hsends : s.sends = []) : settle (handled s) = { s with
    eArmed := if s.mainPc = .lSafety then false else s.eArmed, mainPc := nextLabel s.mainPc, mainAt := .start } := by
  unfold handled
  split
  · exact settle_goAt_done (s := { s with eArmed := false }) hidle hsends
  · exact settle_goAt_done hidle hsends

/-- The report is recorded, and the label ends (47 R169). -/
theorem step_report {s : State} (hfree : MainFree s) {r : Bytes8} (hat : s.mainAt = .report r) (hroom : s.mFill.toNat < 40) :
    ∃ t, exec (.report 8 r) s = .next t ∧ step s = .next { t with
      eArmed := if s.mainPc = .lSafety then false else s.eArmed, mainPc := nextLabel s.mainPc, mainAt := .start } := by
  have ⟨_, hidle, hsends⟩ := hfree
  obtain ⟨t, ht⟩ := execReport_completes r (by decide : validLen 8 = true) fun _ => hroom
  obtain ⟨hpc, -, htidle, htsends, harmed⟩ := (execReport_macroOnly ht).main
  have hafter : afterLine s t = handled t := by simp only [afterLine, hat]
  refine ⟨t, ht, ?_⟩
  rw [step_line hfree (i := .report 8 r) (by simp only [lineAt, hat]; rfl) ht, hafter,
    settle_handled (htidle.trans hidle) (htsends.trans hsends), hpc, harmed]

/-! ## The return of a send -/

/-- The main context's operation while a send is in progress leaves its position as it is (42 R106). -/
theorem step_ackPoll {s t : State} (hin : s.input = []) (hst : s.sState = .waitAck) (h : exec .ackPoll s = .next t) :
    step s = .next (settle t) := by
  rw [step_of_op hin (by simp only [mainNext, hst]) h]
  simp only [mainAfter, hst]

/-- An operation of another agent leaves the main context's position as it is (log 13). -/
theorem step_of_other {s t : State} {o : Offer} {rest : List Turn} {i : Instr} (hin : s.input = .offer o :: rest)
    (hdec : decode s.kMode s.kP2 o = some i) (hother : mainNext s ≠ .op i) (h : exec i { s with input := rest } = .next t) :
    step s = .next (settle t) := by
  have hother' : mainNext { s with input := rest } ≠ .op i := hother
  rw [stepRunsDecodedInstruction s o rest i hin hdec, h, andThen_of_next, if_neg hother']

/-- The word of IDLE_TIMEOUT, whatever the report bus (30 R77). -/
theorem decode_idleTimeout (k : KMode) (p2 : Bool) (r : Bytes8) : decode k p2 ⟨.op16, 0x2800, r⟩ = some .idleTimeout :=
  decodeOp16_opWord (k := 0x05#5) (by decide) 0#8 r

/-- The word of ACK_TIMEOUT, whatever the report bus (30 R77). -/
theorem decode_ackTimeout (k : KMode) (p2 : Bool) (r : Bytes8) : decode k p2 ⟨.op16, 0x3800, r⟩ = some .ackTimeout :=
  decodeOp16_opWord (k := 0x07#5) (by decide) 0#8 r

/-- The third attempt ends unanswered after the device has clocked the byte out (42 R113, R114). -/
theorem exec_ackTimeout_last {s : State} (hst : s.sState = .waitAck) (hack : s.xAckst = .waiting) (hlast : s.sAttempt = 3#2)
    (hrx : s.xMode = .rx) : exec .ackTimeout s = .next { s with
      xAckst := .none, sState := .idle, sResult := .failed,
      history := s.history ++ [.error (.ackTimeout s.sByte 3#2), .error (.sendFailed s.sByte)] } := by
  have hcut : abandonTransmit s = s := if_neg (by rw [hrx]; nofun)
  have hthird : ¬ s.sAttempt.toNat < 3 := by rw [hlast]; decide
  rw [exec_ackTimeout hst hack, hcut, attemptFailed_eq, raise, if_neg hthird, ← hlast]
  simp only [List.append_assoc, List.cons_append, List.nil_append]

/-- Settles O55: the lines of the loop, the points inside a label, and the four ways a send returns. -/
theorem mainLoopRunsInOrder : Obligations.MainLoopRunsInOrder := by
  intro s
  refine ⟨fun hin hidle hsends => ?lines, fun hdone => ⟨fun hin hst => ⟨fun hack => ?acked, fun hnack hlast => ?nacked⟩,
    fun r rest hin hst => ?idleTimeout, fun r rest hin hst hack hlast hrx => ?ackTimeout⟩⟩
  case lines =>
    have hfree : MainFree s := ⟨hin, hidle, hsends⟩
    refine ⟨fun hat => ⟨step_lResend hfree hat, step_lPop_empty hfree hat, fun hpc hbyte hwf => ?pop, fun hpc hmode => ?stopped,
      fun hpc t => step_lService hfree hat hpc, step_lLed_requested hfree hat, step_lLed_none hfree hat,
      step_lSafety_disarmed hfree hat⟩, fun b => step_decode hfree, fun h mods changed => step_issue hfree,
      fun r => step_report hfree⟩
    case pop => exact ⟨_, storedAt_write hwf s.rbRd 0, step_lPop_byte hfree hat hpc hbyte⟩
    case stopped =>
      obtain ⟨hservice, -⟩ := serviceAdvancesTheChase s hidle
      obtain ⟨hnone, -⟩ := step_lService hfree hat hpc (hservice hmode)
      exact hnone rfl
  case acked =>
    obtain ⟨-, hacked, -⟩ := ackPollTakesTheOutcome s hst
    exact (step_ackPoll hin hst (hacked hack)).trans (congrArg _ (settle_of_done hdone rfl))
  case nacked =>
    obtain ⟨-, -, hnacked⟩ := ackPollTakesTheOutcome s hst
    have hexec := hnacked hnack
    rw [if_neg (by rw [hlast]; decide)] at hexec
    exact (step_ackPoll hin hst hexec).trans (congrArg _ (settle_of_done hdone rfl))
  case idleTimeout =>
    have hother : mainNext s ≠ .op .idleTimeout := by simp only [mainNext, hst]; nofun
    exact (step_of_other hin (decode_idleTimeout _ _ r) hother (exec_idleTimeout hst)).trans
      (congrArg _ (settle_of_done hdone rfl))
  case ackTimeout =>
    have hother : mainNext s ≠ .op .ackTimeout := by simp only [mainNext, hst]; nofun
    exact (step_of_other hin (decode_ackTimeout _ _ r) hother (exec_ackTimeout_last hst hack hlast hrx)).trans
      (congrArg _ (settle_of_done hdone rfl))

end Sys2Proof.Machine

/-! The environment (47_environment): the pressed-key set after a press or a release, the packed report of a change, the safety
deadline, and the reports of the main context's turns. -/

namespace Sys2Proof.Machine

/-! ## The pressed-key set -/

/-- A code has a slot exactly when it is tracked (47 R164). -/
theorem slotOf_lt_iff {c : Code} {s : State} : slotOf c s < Config.keysetCap ↔ c ∈ s.eKeys.toList := by
  have hlen : s.eKeys.toList.length = Config.keysetCap := s.eKeys.length_toList
  rw [slotOf, ← hlen, List.findIdx_lt_length]
  simp

/-- A tracked code is in its lowest slot, and writing that slot is one entry of the vector (47 R166, R167). -/
theorem keySet_slotOf {c : Code} {s : State} (h : c ∈ s.eKeys.toList) : ∃ i : Fin 6, s.eKeys[i] = c ∧
    (∀ j < i, s.eKeys[j] ≠ c) ∧ ∀ d, keySet (slotOf c s) d s = { s with eKeys := s.eKeys.set i d } := by
  have hlt : slotOf c s < 6 := slotOf_lt_iff.mpr h
  have hlt' : s.eKeys.toList.findIdx (· == c) < s.eKeys.toList.length := by rwa [Vector.length_toList]
  refine ⟨⟨slotOf c s, hlt⟩, ?slot, fun j hj => ?lowest, fun d => ?write⟩
  case slot => simpa [slotOf] using List.findIdx_getElem (w := hlt')
  case lowest => simpa using List.not_of_lt_findIdx (p := (· == c)) (xs := s.eKeys.toList) hj
  case write => simp [keySet, Vector.setIfInBounds, Vector.set, Array.setIfInBounds, hlt]

/-- The deadline of a press or of an echo (47 R166). -/
theorem armDeadline_eq (s : State) : armDeadline s = { s with eDeadline := s.tMs + 60000, eArmed := true } := by
  simp only [armDeadline, Config.safetyMs, BitVec.ofNat_eq_ofNat]

/-- A code without a slot takes the lowest empty one, and then its hotkey's operation, if it has one, is next (47 R166). -/
theorem envPress_inserts (p : EnvParams) {c : Code} (mods : Byte) {s : State}
    (hlive : ¬(s.mMode = .replaying ∧ c ≠ p.hkPlay)) (hnew : c ∉ s.eKeys.toList) (hroom : 0#32 ∈ s.eKeys.toList) :
    envPress p c mods s = goAt (afterInsert p c mods) (armDeadline (keySet (slotOf 0#32 s) c s)) := by
  rw [envPress, if_neg hlive, if_neg (slotOf_lt_iff.not.mpr hnew), if_pos (slotOf_lt_iff.mpr hroom)]

/-- Settles O57: the cases of a press and of a release, in their order. -/
theorem pressAndReleaseUpdateTheKeySet : Obligations.PressAndReleaseUpdateTheKeySet := by
  intro p c mods s hat _ deadline
  have hpress : envAct p s = envPress p c mods s := by simp only [envAct, hat, envHandle]
  rw [hpress]
  refine ⟨fun habort => if_pos habort, fun hlive => ⟨fun hheld => ?echo, fun hnew hfull => ?full, fun hnew hroom => ?insert⟩,
    fun hgone => ?notFound, fun hheld => ?release⟩
  case echo =>
    rw [envPress, if_neg hlive, if_pos (slotOf_lt_iff.mpr hheld), armDeadline_eq]
    rfl
  case full =>
    rw [envPress, if_neg hlive, if_neg (slotOf_lt_iff.not.mpr hnew), if_neg (slotOf_lt_iff.not.mpr hfull)]
    rfl
  case insert =>
    obtain ⟨i, hempty, hlowest, hwrite⟩ := keySet_slotOf hroom
    refine ⟨i, hempty, hlowest, ?_⟩
    rw [envPress_inserts p mods hlive hnew hroom, hwrite, armDeadline_eq]
    rfl
  case notFound => exact if_neg (slotOf_lt_iff.not.mpr hgone)
  case release =>
    obtain ⟨i, hslot, -, hwrite⟩ := keySet_slotOf (s := { s with mainAt := .handle mods c .release }) hheld
    refine ⟨i, hslot, (if_pos (slotOf_lt_iff.mpr hheld)).trans ?_⟩
    rw [hwrite]
    rfl

/-! ## The report of a change -/

/-- The codes a report speaks of: the tracked ones that are no hotkey, in slot order (47 R168). -/
def liveKeys (p : EnvParams) (keys : List Code) : List Code := keys.filter fun c => decide (c ≠ 0#32 ∧ c ∉ p.hotkeys)

/-- A report build skips exactly the entries that are no live code (47 R168). -/
theorem skipped_iff (p : EnvParams) (c : Code) : (c = 0#32 ∨ isHotkey p c = true) ↔ ¬(c ≠ 0#32 ∧ c ∉ p.hotkeys) := by
  rw [isHotkey_iff]
  tauto

/-- The usages of a report are those of its codes (47 R168). -/
theorem usagesOf_eq (p : EnvParams) (keys : List Code) : usagesOf p keys = (liveKeys p keys).filterMap (envUsage p) := by
  rw [liveKeys, List.filterMap_filter, usagesOf]
  refine List.filterMap_congr fun c _ => ?_
  simp only [skipped_iff, ite_not, decide_eq_true_eq]

/-- The codes logged in a report build are those of its codes that have no usage (47 R168, 60 R176). -/
theorem unsupportedOf_eq (p : EnvParams) (keys : List Code) : unsupportedOf p keys =
    ((liveKeys p keys).filter fun c => (envUsage p c).isNone).map fun c => .error (.unsupported c) := by
  rw [← List.filterMap_eq_map, List.filterMap_filter, liveKeys, List.filterMap_filter, unsupportedOf]
  refine List.filterMap_congr fun c _ => ?_
  simp only [← or_assoc, skipped_iff, decide_eq_true_eq]
  by_cases hlive : c ≠ 0#32 ∧ c ∉ p.hotkeys
  · cases envUsage p c <;> simp [hlive]
  · simp [hlive]

/-- The six slots give at most six usages. -/
theorem usagesOf_length_le (p : EnvParams) (s : State) : (usagesOf p s.eKeys.toList).length ≤ 6 :=
  (List.length_filterMap_le _ _).trans_eq s.eKeys.length_toList

/-- The bytes of a built report: the modifiers, a reserved byte, and the packed usages (47 R168). -/
theorem bytesOf_buildReport (p : EnvParams) (mods : Byte) (s : State) : bytesOf (buildReport p mods s) =
    mods :: 0#8 :: (usagesOf p s.eKeys.toList ++ List.replicate (6 - (usagesOf p s.eKeys.toList).length) 0#8) := by
  have hle := usagesOf_length_le p s
  rw [buildReport, bytesOf_bytes8 (by simp only [List.length_cons]; omega)]
  simp

/-- A report build while a replay owns the output only logs (47 R169). -/
theorem envEmit_replaying (p : EnvParams) (mods : Byte) {s : State} (h : s.mMode = .replaying) :
    envEmit p mods s = handled (raiseUnsupported p s) := by
  simp only [envEmit, h]

/-- With the macro stopped the report goes to the host (47 R169). -/
theorem envEmit_stopped (p : EnvParams) (mods : Byte) {s : State} (h : s.mMode = .stopped) :
    envEmit p mods s = handled (emitUsb (bytesOf (buildReport p mods s)) (raiseUnsupported p s)) := by
  simp only [envEmit, h]

/-- While Recording the report goes to the host and to REPORT (47 R169). -/
theorem envEmit_recording (p : EnvParams) (mods : Byte) {s : State} (h : s.mMode = .recording) : envEmit p mods s =
    goAt (.report (buildReport p mods s)) (emitUsb (bytesOf (buildReport p mods s)) (raiseUnsupported p s)) := by
  simp only [envEmit, h]

/-- Outside L_SAFETY the end of a handling is the end of the label's lines (47 R165). -/
theorem handled_of_ne {s : State} (h : s.mainPc ≠ .lSafety) : handled s = goAt .done s := if_neg h

/-- Settles O58: no change, or the emission in each macro mode. -/
theorem changeEmitsThePackedReport : Obligations.ChangeEmitsThePackedReport := by
  intro p mods changed s hat hpc live usages logged report
  have hact : envAct p s = envChanged p mods changed s := by simp only [envAct, hat]
  have hlogged : unsupportedOf p s.eKeys.toList = logged := unsupportedOf_eq p _
  have hreport : bytesOf (buildReport p mods { s with ePrevmods := mods }) = report := by
    rw [bytesOf_buildReport, usagesOf_eq]
    rfl
  rw [hact]
  refine ⟨fun hsame hmods => if_neg (by simp [hsame, hmods]), fun hchange => ?_⟩
  rw [envChanged, if_pos hchange]
  refine ⟨fun hmode => ?replaying, fun hmode => ?stopped, fun hmode => ?recording⟩
  case replaying =>
    rw [envEmit_replaying (s := { s with ePrevmods := mods }) p mods hmode, handled_of_ne (by exact hpc), ← hlogged]
    rfl
  case stopped =>
    rw [envEmit_stopped (s := { s with ePrevmods := mods }) p mods hmode, handled_of_ne (by exact hpc), ← hlogged, hreport]
    rfl
  case recording =>
    refine ⟨_, hreport, ?_⟩
    rw [envEmit_recording (s := { s with ePrevmods := mods }) p mods hmode, ← hlogged, hreport]
    rfl

/-! ## The safety deadline -/

/-- With every slot empty there is nothing to report or to log (47 R168, R170). -/
theorem noKeys_report (p : EnvParams) {s : State} (h : s.eKeys = Vector.replicate 6 0) :
    bytesOf (buildReport p 0 s) = List.replicate 8 0#8 ∧ raiseUnsupported p s = s := by
  have husages : usagesOf p (List.replicate 6 0#32) = [] := rfl
  have hlogged : unsupportedOf p (List.replicate 6 0#32) = [] := rfl
  have hkeys : s.eKeys.toList = List.replicate 6 0#32 := by rw [h]; rfl
  rw [bytesOf_buildReport, raiseUnsupported, hkeys, husages, hlogged, List.append_nil]
  exact ⟨rfl, rfl⟩

/-- MODS_CLEAR, the second turn of the forced clear (47 R170, 43 R141). -/
theorem step_clear {s : State} (hfree : MainFree s) (hat : s.mainAt = .clear) :
    step s = .next { s with kMods := 0, kRel := false, mainAt := .cleared } := by
  rw [step_line hfree (i := .modsClear) (by simp only [lineAt, hat]) rfl]
  simp only [afterLine, hat]
  exact congrArg Host.Outcome.next (settle_goAt (by nofun) _)

/-- The all-zero report, the third turn of the forced clear, which also disarms the deadline (47 R170). -/
theorem step_cleared {s : State} (hfree : MainFree s) (hat : s.mainAt = .cleared) (hpc : s.mainPc = .lSafety)
    (hmode : s.mMode = .stopped) (hkeys : s.eKeys = Vector.replicate 6 0) : step s = .next { s with
      ePrevmods := 0, eArmed := false, history := s.history ++ [.usb (List.replicate 8 0#8)], mainPc := .lResend,
      mainAt := .start } := by
  have ⟨_, hidle, hsends⟩ := hfree
  obtain ⟨hreport, hlogged⟩ := noKeys_report Config.env (s := { s with ePrevmods := 0 }) hkeys
  have hact : envAct Config.env s = envEmit Config.env 0 { s with ePrevmods := 0 } := by
    simp only [envAct, hat, safetyCleared]
  rw [step_envLine hfree (by simp only [lineAt, hat]), hact, envEmit_stopped (s := { s with ePrevmods := 0 }) _ _ hmode,
    hreport, hlogged, settle_handled (by exact hidle) (by exact hsends)]
  simp only [emitUsb, hpc, if_true, nextLabel]

/-- Settles O59: the check's branches in their order, and the three turns of the forced clear. -/
theorem safetyDeadlineClearsStuckKeys : Obligations.SafetyDeadlineClearsStuckKeys := by
  intro s hfree hpc hat harmed
  have ⟨hin, hidle, hsends⟩ := hfree
  rw [step_lSafety hfree hat hpc, safetyCheck, if_neg (by simp [harmed])]
  refine ⟨fun hup => ?settled, fun ⟨c, hmem, hheld⟩ => ?held⟩
  case settled =>
    rw [if_pos (List.all_eq_true.mpr fun c hc => beq_iff_eq.mpr (hup c hc))]
    exact congrArg Host.Outcome.next (settle_singleLine (s := { s with eArmed := false }) hpc hat hidle hsends)
  case held =>
    rw [if_neg fun hall => hheld (by simpa using List.all_eq_true.mp hall c hmem)]
    refine ⟨fun hmode => ?extended, fun hmode hearly => ?early, fun hmode hdue => ?expired⟩
    case extended =>
      rw [if_pos hmode]
      exact congrArg Host.Outcome.next
        (settle_singleLine (s := { s with eDeadline := s.tMs + 60000 }) hpc hat hidle hsends)
    case early =>
      rw [if_neg hmode, if_neg (by simp [ge32, hearly])]
      exact congrArg Host.Outcome.next (settle_singleLine hpc hat hidle hsends)
    case expired =>
      have hge : ge32 s.tMs s.eDeadline = true := decide_eq_true hdue
      rw [if_neg (by simp [hmode]), if_pos hge, settle_goAt (m := .clear) nofun]
      refine ⟨_, _, _, rfl, step_clear ⟨hin, hidle, hsends⟩ rfl, step_cleared ⟨hin, hidle, hsends⟩ rfl hpc hmode rfl, ?_⟩
      rw [hat]
      rfl

/-! ## Reports -/

/-- From s to t no report was emitted (47 R172). -/
def NoReport (s t : State) : Prop := reportsOf t.history = reportsOf s.history

/-- Operations in sequence. -/
theorem NoReport.trans {s t u : State} (hst : NoReport s t) (htu : NoReport t u) : NoReport s u := Eq.trans htu hst

/-- A quiet operation emits nothing. -/
theorem Quiet.noReport {s t : State} (h : Quiet s t) : NoReport s t := by
  rw [Quiet] at h
  rw [h]
  rfl

/-- An error event is no report (10 R54). -/
theorem raise_noReport (e : ErrorEvent) (s : State) : NoReport s (raise e s) := by
  simp [NoReport, reportsOf]

/-- The events of a report build are no reports (47 R168). -/
theorem raiseUnsupported_noReport (p : EnvParams) (s : State) : NoReport s (raiseUnsupported p s) := by
  have hnone : reportsOf (unsupportedOf p s.eKeys.toList) = [] := by
    rw [unsupportedOf_eq, reportsOf, List.filterMap_map]
    exact List.filterMap_eq_nil_iff.mpr fun _ _ => rfl
  have happend : reportsOf (s.history ++ unsupportedOf p s.eKeys.toList) = reportsOf s.history ++ [] :=
    hnone ▸ List.filterMap_append
  rwa [List.append_nil] at happend

/-! ## The main context's operations emit no report, SERVICE apart -/

/-- ACK_POLL emits no report (42 R112). -/
theorem execAckPoll_noReport {s t : State} (h : execAckPoll s = .next t) : NoReport s t := by
  obtain ⟨-, h⟩ := guarded_next.mp h
  cases hack : s.xAckst <;> rw [hack] at h <;> cases h
  case waiting | acked => rfl
  case nacked =>
    obtain ⟨-, heq⟩ | ⟨-, heq⟩ := attemptFailed_cases { s with xAckst := .none } <;> rw [heq]
    · rfl
    · exact raise_noReport (.sendFailed s.sByte) s

/-- A pass of the wait for 0xAA emits no report (42 R121). -/
theorem batPollOnce_noReport (s : State) : NoReport s (batPollOnce s) := by
  unfold batPollOnce
  split <;> rw [rbPop_frame] <;> rfl

/-- REPORT stores its report and emits none (44 R150). -/
theorem execReport_noReport {len : BitVec 4} {r : Bytes8} {s t : State} (h : execReport len r s = .next t) :
    NoReport s t := by
  unfold execReport at h
  split_ifs at h with hlen hmode hfirst hroom <;> cases h
  · rfl
  · rfl
  · rw [fullCheck_stepAppend _ hroom]
    by_cases hlast : s.mFill = 39#6
    · simp only [NoReport, if_pos hlast]
      exact raise_noReport .macroFull s
    · simp only [NoReport, if_neg hlast]

/-- The operation of a hotkey case emits no report, a replay's abort included (44 R146 to R149, 70 R188). -/
theorem exec_hotInstr_noReport {h : HotOp} {s t : State} (hexec : exec (hotInstr h) s = .next t) : NoReport s t := by
  cases h with
  | otherPress =>
    cases hexec
    split <;> rfl
  | reset => cases hexec; rfl
  | recHotkey =>
    change execRecHotkey s = .next t at hexec
    unfold execRecHotkey at hexec
    split at hexec <;> cases hexec <;> rfl
  | playHotkey =>
    change execPlayHotkey s = .next t at hexec
    unfold execPlayHotkey at hexec
    split at hexec <;> cases hexec <;> rfl

/-- Of the first lines of the labels only L_SERVICE's can emit a report (47 R163, 70 R190). -/
theorem firstLine_noReport {l : MainLabel} {i : Instr} {s t : State} (hline : firstLine l = .op i) (hservice : i ≠ .service)
    (h : exec i s = .next t) : NoReport s t := by
  cases l <;> cases hline
  case bootEnter => cases h; rfl
  case lService => exact absurd rfl hservice
  all_goals obtain ⟨-, h⟩ := guarded_next.mp h
  case bootReset | bootScanset | bootLeave => cases h; rfl
  case bootWaitBat => cases h; exact batPollOnce_noReport s
  case lPop =>
    cases h
    rw [rbPop_frame]
    rfl
  case lResend | lLed => split at h <;> cases h <;> rfl

/-- Of the main context's operations only SERVICE can emit a report (47 R163, R172). -/
theorem mainNext_noReport {i : Instr} {s t : State} (hnext : mainNext s = .op i) (hservice : i ≠ .service)
    (h : exec i s = .next t) : NoReport s t := by
  obtain ⟨-, rfl⟩ | ⟨-, b, rest, -, rfl⟩ | ⟨-, -, hline⟩ := mainNext_op_cases hnext
  · exact execAckPoll_noReport h
  · obtain ⟨-, h⟩ := guarded_next.mp h
    cases h
    rfl
  · unfold lineAt at hline
    cases hat : s.mainAt <;> rw [hat] at hline
    case start => exact firstLine_noReport hline hservice h
    case decode => cases hline; cases h; exact (decodeByte_quiet _ s).noReport
    case issue => cases hline; exact exec_hotInstr_noReport h
    case report => cases hline; exact execReport_noReport h
    case clear => cases hline; cases h; rfl
    case handle | emit | cleared | done => cases hline

/-! ## The environment emits no report while a replay owns the output -/

/-- A press emits no report of itself (47 R166). -/
theorem envPress_noReport (p : EnvParams) (c : Code) (mods : Byte) (s : State) : NoReport s (envPress p c mods s) := by
  unfold envPress
  split_ifs
  · rfl
  · exact (raise_noReport (.echo c) s).trans ((armDeadline_quiet _).noReport.trans (goAt_quiet _ _).noReport)
  · rfl
  · exact raise_noReport (.keysFull c) s

/-- A release emits no report of itself (47 R167). -/
theorem envRelease_noReport (c : Code) (mods : Byte) (s : State) : NoReport s (envRelease c mods s) := by
  unfold envRelease
  split_ifs
  · rfl
  · exact raise_noReport (.releaseNotFound c) s

/-- While Replaying the report of a change is withheld (47 R169). -/
theorem envEmit_noReport (p : EnvParams) (mods : Byte) {s : State} (hmode : s.mMode = .replaying) :
    NoReport s (envEmit p mods s) := by
  rw [envEmit_replaying p mods hmode]
  exact (raiseUnsupported_noReport p s).trans (handled_quiet _).noReport

/-- While Replaying the end of a handling emits no report (47 R165, R169). -/
theorem envChanged_noReport (p : EnvParams) (mods : Byte) (changed : Bool) {s : State} (hmode : s.mMode = .replaying) :
    NoReport s (envChanged p mods changed s) := by
  unfold envChanged
  split
  · exact envEmit_noReport p mods (s := { s with ePrevmods := mods }) hmode
  · rfl

/-- The safety check emits nothing of itself; the all-clear report comes after MODS_CLEAR (47 R170). -/
theorem safetyCheck_noReport (s : State) : NoReport s (safetyCheck s) := by
  unfold safetyCheck
  split_ifs <;> rfl

/-- While Replaying no action of the environment emits a report (47 R169, R172). -/
theorem envAct_noReport (p : EnvParams) {s : State} (hmode : s.mMode = .replaying) : NoReport s (envAct p s) := by
  unfold envAct
  cases s.mainAt with
  | handle mods c ev =>
    cases ev with
    | press => exact envPress_noReport p c mods s
    | release => exact envRelease_noReport c mods s
    | none => rfl
  | emit mods changed => exact envChanged_noReport p mods changed hmode
  | cleared => exact envEmit_noReport p 0 (s := { s with ePrevmods := 0 }) hmode
  | start => exact safetyCheck_noReport s
  | decode | issue | report | clear | done => rfl

/-- Settles O60: an operation other than SERVICE, an action of the environment, or a wait, and then the move of MAIN_PC. -/
theorem noLiveReportWhileReplaying : Obligations.NoLiveReportWhileReplaying := by
  intro s t hin hmode hservice h
  change NoReport s t
  rw [step_of_no_input hin, mainTurn] at h
  cases hnext : mainNext s with
  | op i =>
    rw [hnext] at h
    dsimp only at h
    rw [runOp_of_mainNext hnext] at h
    obtain ⟨u, hexec, hmove⟩ := andThen_next.mp h
    cases hmove
    have hop : NoReport s u := mainNext_noReport hnext (fun heq => hservice (heq ▸ hnext)) hexec
    exact (hop.trans (mainAfter_quiet s u).noReport).trans (settle_quiet _).noReport
  | env =>
    rw [hnext] at h
    cases h
    exact (envAct_noReport _ hmode).trans (settle_quiet _).noReport
  | wait =>
    rw [hnext] at h
    cases h
    rfl

end Sys2Proof.Machine

/-! Reset and boot (70_reset_and_hazards): what the register view shows after a block reset, and the boot sequence label by label. -/

namespace Sys2Proof.Machine

/-! ## Block reset -/

/-- Below 0x200 the register view reads neither STEP nor what is no element of 10 R18: the outputs and the model's own fields. -/
theorem regView_frame (s : State) (steps : Vector MacroStep 40) (history : List Output) (result : Result) (input : List Turn)
    (freeCount : Nat) {reg : Nat} (hreg : reg < 0x200) :
    regView { s with steps := steps, history := history, result := result, input := input, freeCount := freeCount } reg =
      regView s reg := by
  unfold regView
  split_ifs <;> rfl

/-- A block reset restores every single element and every slot of RB (70 R188). -/
theorem blockReset_regView (s : State) {reg : Nat} (hreg : reg < 0x200) :
    regView (blockReset s) reg = regView State.reset reg :=
  regView_frame State.reset _ _ _ _ _ hreg

/-- BAT_TIMEOUT in the wait for 0xAA (42 R122). -/
theorem exec_batTimeout {s : State} (hpc : s.mainPc = .bootWaitBat) :
    exec .batTimeout s = .next (blockReset (raise .batFail s)) :=
  guarded_next.mpr ⟨beq_iff_eq.mpr hpc, rfl⟩

/-- Settles O49: both operations end in the block reset, BAT_TIMEOUT after its event. -/
theorem resetRestoresEveryElement : Obligations.ResetRestoresEveryElement := by
  intro s restored
  have hrestored (u : State) : restored (blockReset u) := ⟨fun _ => blockReset_regView u, rfl, rfl, rfl, rfl, rfl, rfl⟩
  have hhistory (u : State) : (blockReset u).history = u.history := (blockReset_kept u).left
  exact ⟨⟨blockReset s, rfl, hrestored s, hhistory s⟩,
    fun hpc => ⟨_, exec_batTimeout hpc, hrestored _, (hhistory _).trans (raise_history .batFail s)⟩⟩

/-! ## The boot sequence -/

/-- BOOT_ENTER puts the decoder in Command mode (70 R190, 43 R139). -/
theorem step_bootEnter {s : State} (hfree : MainFree s) (hat : s.mainAt = .start) (hpc : s.mainPc = .bootEnter) :
    step s = .next { s with kMode := .command, mainPc := .bootReset } := by
  have ⟨_, hidle, hsends⟩ := hfree
  obtain ⟨henter, -, -⟩ := decoderControlOperations s
  rw [step_firstLine hfree hat hpc rfl henter]
  exact congrArg Host.Outcome.next (settle_singleLine (s := { s with kMode := .command }) hpc hat hidle hsends)

/-- BOOT_RESET sends FF; the label ends when the send returns (70 R190, 42 R106). -/
theorem step_bootReset {s : State} (hfree : MainFree s) (hat : s.mainAt = .start) (hpc : s.mainPc = .bootReset) :
    step s = .next { s with sByte := 0xFF, sAttempt := 1, sResult := .none, sState := .waitIdle, mainAt := .done } := by
  have ⟨_, hidle, _⟩ := hfree
  rw [step_firstLine hfree hat hpc rfl (exec_send hidle _)]
  exact congrArg Host.Outcome.next (settle_of_sending nofun)

/-- A poll of BOOT_WAIT_BAT leaves the main context at the first line of a label (70 R190, 42 R121). -/
theorem step_bootWaitBat {s t : State} (hfree : MainFree s) (hat : s.mainAt = .start) (hpc : s.mainPc = .bootWaitBat)
    (h : exec .batPoll s = .next t) (htat : t.mainAt = .start) : step s = .next t := by
  rw [step_firstLine hfree hat hpc rfl h]
  exact congrArg Host.Outcome.next (settle_of_not_done (htat.trans_ne nofun))

/-- BOOT_WAIT_BAT with an empty buffer waits on (42 R120, R121). -/
theorem step_bootWaitBat_empty {s : State} (hfree : MainFree s) (hat : s.mainAt = .start) (hpc : s.mainPc = .bootWaitBat)
    (hempty : rbAt s s.rbRd = 0#8) : step s = .next s := by
  have ⟨_, hidle, _⟩ := hfree
  have hnot : rbFront s ≠ Config.batOk := by rw [rbFront, hempty]; decide
  have hpoll : batPollOnce s = s := by rw [batPollOnce, if_neg hnot, rbPop_eq, if_pos hempty]
  exact step_bootWaitBat hfree hat hpc ((exec_batPoll hpc hidle).trans (congrArg _ hpoll)) hat

/-- BOOT_WAIT_BAT takes the oldest byte, and 0xAA ends the wait (42 R121). -/
theorem step_bootWaitBat_byte {s : State} (hfree : MainFree s) (hat : s.mainAt = .start) (hpc : s.mainPc = .bootWaitBat)
    (hbyte : rbAt s s.rbRd ≠ 0#8) (hwf : Memory.wf s.rb = true) : ∃ m, StoredAt s.rb m s.rbRd.toNat 0 ∧
      step s = .next { s with
        rb := m, rbRd := s.rbRd + 1, mainPc := if rbAt s s.rbRd = 0xAA#8 then .bootScanset else .bootWaitBat } := by
  have ⟨_, hidle, _⟩ := hfree
  obtain ⟨m, hstored, hexec⟩ := batPollWaitsForBatOk s hpc hidle hwf
  refine ⟨m, hstored, step_bootWaitBat hfree hat hpc ?_ hat⟩
  rw [hexec, if_neg hbyte]
  split
  · rw [hat]
  · rw [hpc]

/-- BOOT_SCANSET sends F0, with 02 to follow (70 R190, 42 R119). -/
theorem step_bootScanset {s : State} (hfree : MainFree s) (hat : s.mainAt = .start) (hpc : s.mainPc = .bootScanset) :
    step s = .next { s with
      sByte := 0xF0, sAttempt := 1, sResult := .none, sState := .waitIdle, mainAt := .done, sends := [0x02] } := by
  have ⟨_, hidle, _⟩ := hfree
  rw [step_firstLine hfree hat hpc rfl (exec_send hidle _)]
  exact congrArg Host.Outcome.next (settle_of_sending nofun)

/-- BOOT_LEAVE gives the decoder back to the keys, and the main loop is next (70 R190, 43 R140). -/
theorem step_bootLeave {s : State} (hfree : MainFree s) (hat : s.mainAt = .start) (hpc : s.mainPc = .bootLeave)
    (hmode : s.kMode = .command) :
    step s = .next { s with kMode := .key, kRel := false, kP2 := false, mainPc := .lResend } := by
  have ⟨_, hidle, hsends⟩ := hfree
  obtain ⟨-, hleave, -⟩ := decoderControlOperations s
  rw [step_firstLine hfree hat hpc rfl (hleave hmode)]
  exact congrArg Host.Outcome.next
    (settle_singleLine (s := { s with kMode := .key, kRel := false, kP2 := false }) hpc hat hidle hsends)

/-- Settles O54: the five labels in their order, the wait with an empty buffer and with a byte. -/
theorem bootRunsInOrder : Obligations.BootRunsInOrder := fun _ hfree hat =>
  ⟨step_bootEnter hfree hat, step_bootReset hfree hat, step_bootWaitBat_empty hfree hat, step_bootWaitBat_byte hfree hat,
    step_bootScanset hfree hat, step_bootLeave hfree hat⟩

end Sys2Proof.Machine
